-- ==== Sys2Proof/Word.lean ====
section
/-! DEFINITION. The word types of the engine (00_scope R5, R7): every value is an unsigned bit vector of a fixed width. -/

namespace Sys2Proof

/-- One byte of a payload buffer. -/
abbrev Byte := BitVec 8

/-- One word of the host bus; a command is one such word (R54, R71). -/
abbrev Word := BitVec 32

/-- A 64-bit block, key, IV or chain value (R5, R10). -/
abbrev Block := BitVec 64

/-- A half block, Left or Right (R5). -/
abbrev Half := BitVec 32

/-- A half of the parity-dropped key, C or D (R5). -/
abbrev KeyHalf := BitVec 28

/-- A round subkey, or another 48-bit value of the round function (R5). -/
abbrev Subkey := BitVec 48

end Sys2Proof
end

