-- ==== Sys2Proof/Syntax.lean ====
section
/-! DEFINITION. The twelve commands, one constructor per row of spec/opcode_table.json (30_encoding R71, R73, R74). -/

namespace Sys2Proof

/-- A command with its operand fields as the command word carries them.
`mode` is the 3-bit MODE field, of which 5, 6 and 7 are reserved (R73): `Instr.WellFormed` refuses those.
`riv` is the RIV bit of format MR. -/
inductive Instr where
  /-- NOP, opcode 0x00 (R220). -/
  | nop
  /-- KEYEXP, opcode 0x01 (R122). -/
  | keyexp
  /-- ENCBLK, opcode 0x02 (R143). -/
  | encblk
  /-- DECBLK, opcode 0x03 (R144). -/
  | decblk
  /-- MINIT, opcode 0x04, format M (R161). -/
  | minit (mode : BitVec 3)
  /-- MBLKE, opcode 0x05 (R164). -/
  | mblke
  /-- MBLKD, opcode 0x06 (R165). -/
  | mblkd
  /-- MSGENC, opcode 0x07, format MR (R183). -/
  | msgenc (mode : BitVec 3) (riv : Bool)
  /-- MSGDEC, opcode 0x08, format M (R184). -/
  | msgdec (mode : BitVec 3)
  /-- IVGEN, opcode 0x09 (R221). -/
  | ivgen
  /-- CLRERR, opcode 0x0A (R223). -/
  | clrerr
  /-- SRESET, opcode 0x0B (R224). -/
  | sreset
  deriving DecidableEq, Repr

end Sys2Proof
end

