-- ==== Sys2Proof/WellFormed.lean ====
section
/-! DEFINITION. Which commands are well formed: the MODE field of formats M and MR is 0 to 4 (30_encoding R73, R74). -/

namespace Sys2Proof

/-- The MODE field names one of the five modes (R73). -/
abbrev legalMode (mode : BitVec 3) : Prop := mode.toNat ≤ 4

/-- A command is well formed when its MODE field, if it has one, is legal.
Nothing else of a command's syntax can be wrong. -/
abbrev Instr.WellFormed (i : Instr) : Prop :=
  match i with
  | .nop => True
  | .keyexp => True
  | .encblk => True
  | .decblk => True
  | .minit mode => legalMode mode
  | .mblke => True
  | .mblkd => True
  | .msgenc mode _ => legalMode mode
  | .msgdec mode => legalMode mode
  | .ivgen => True
  | .clrerr => True
  | .sreset => True

end Sys2Proof
end

