-- ==== Sys2Proof/Machine/State.lean ====
section
/-! DEFINITION. The state of the engine (10_state R10 to R36) as plain data, the host's side of the bus (60_exceptions R252, R253), the stop reasons, and the state right after reset (R36). -/

namespace Sys2Proof.Machine

/-- The five modes of operation, in the order of their numbers (30_encoding R73). -/
inductive Mode where
  | ecb
  | cbc
  | cfb
  | ofb
  | ctr
  deriving DecidableEq, Repr

/-- The direction of a core invocation or of a chain step (00_scope R9; TR.DIR of 10_state R27). -/
inductive Dir where
  | enc
  | dec
  deriving DecidableEq, Repr

/-- What `STATUS.ERR` can hold (60_exceptions R230): the codes 4, 6 and 7 never appear (R230, R234), so they have no constructor. -/
inductive ErrCode where
  /-- 0: the most recent command completed. -/
  | completed
  /-- 1: a numeric input exceeds its legal range (R231). -/
  | inputFormat
  /-- 2: the ciphertext body is not a multiple of 8 bytes (R232). -/
  | length
  /-- 3: a non-ECB ciphertext shorter than 16 bytes (R233). -/
  | missingIv
  /-- 5: a word that does not decode (R235). -/
  | illegalCommand
  deriving DecidableEq, Repr

/-- The fields of `STATUS` (10_state R17).
Reserved bits 7 and 31:11 read 0 (R32) and are not stored; `statusWord` is the word the host reads. -/
structure Status where
  /-- Result of the most recent command. -/
  err : ErrCode
  /-- Sticky: a command has failed since the last CLRERR, SRESET or hard reset. -/
  errs : Bool
  /-- The most recent completed MSGDEC found no valid padding. -/
  padinv : Bool
  /-- The trace bank holds the trace of a core invocation of this chain, or of ENCBLK or DECBLK. -/
  trvalid : Bool
  /-- The bank KS holds the schedule of the present KEY. -/
  ksvalid : Bool
  /-- The latched mode of the current chain. -/
  mode : Mode
  deriving DecidableEq, Repr

/-- The fields of `VARIANT` (10_state R19).
Reserved bits 7:5, 15:13 and 31:21 read 0 and ignore writes (R32), so they are not stored. -/
structure Variant where
  /-- Bit 0: the initial permutation is the identity (46_variant R201). -/
  skipIp : Bool
  /-- Bit 1: the final permutation is the identity (R202). -/
  skipFp : Bool
  /-- Bit 2: the half-swap before the final permutation is omitted (R203). -/
  skipSwap : Bool
  /-- Bit 3: the subkey sequence is reversed (R204). -/
  revKeys : Bool
  /-- Bit 4: ALTSHIFT gives the rotation amounts (R205). -/
  altShift : Bool
  /-- Bits 12:8: number of rounds, 0 for 16; 17 to 31 can be stored (R206). -/
  nr : BitVec 5
  /-- Bits 20:16: exchange the halves after this round, 0 for never; 17 to 31 can be stored (R207). -/
  swapr : BitVec 5
  deriving DecidableEq, Repr

/-- One record `KS[r]` of the key-schedule bank (10_state R25).
The field ROUND is hardwired to r and is produced by the register read, not stored. -/
structure KsRecord where
  shift : BitVec 2
  c : KeyHalf
  d : KeyHalf
  k : Subkey
  deriving DecidableEq, Repr

/-- The key-schedule bank `KS` (10_state R24): `recs[i]` is the record `KS[i + 1]`, in generation order. -/
structure KsBank where
  c0 : KeyHalf
  d0 : KeyHalf
  recs : Vector KsRecord 16
  deriving DecidableEq, Repr

/-- One record `TR[i]` of the trace bank (10_state R28). -/
structure TrRecord where
  /-- Left half before the round. -/
  l : Half
  /-- Right half before the round. -/
  r : Half
  /-- Subkey used. -/
  k : Subkey
  /-- E-expansion of `r`. -/
  e : Subkey
  /-- `e ^ k`. -/
  x : Subkey
  /-- Concatenated S-box outputs. -/
  s : Half
  /-- P-permutation of `s`, the value of F. -/
  p : Half
  /-- New Left, then new Right, before any variant swap. -/
  blk : Block
  deriving DecidableEq, Repr

/-- The trace bank `TR`: its header (10_state R27) and its records (R28). -/
structure TrBank where
  /-- TR.LEN, the number of valid records. -/
  len : BitVec 5
  /-- TR.DIR, the direction of the traced invocation. -/
  dir : Dir
  /-- TR.IN, the core's input block. -/
  inp : Block
  /-- TR.IP, the output of the initial-permutation stage. -/
  ip : Block
  /-- TR.FP, the output of the final-permutation stage. -/
  fp : Block
  /-- TR.OUT, the core's output block. -/
  out : Block
  recs : Vector TrRecord 16
  deriving DecidableEq, Repr

/-- A payload buffer: the bytes that have been written since the hard reset, as (offset, byte) pairs with offsets strictly rising.
An unlisted offset holds no value of the list's: reading it gives the free byte BUF_RESET (10_state R36; log entry 4). -/
abbrev Memory := List Host.Cell

/-- The registers of the host map (10_state R31), one constructor per line of the map.
`KS` and `TR` records carry their index counted from 0: `ksC i` is `KS_C[i + 1]`, `trL i` is `TR_L[i]`.
A window word carries the byte offset in its buffer, a multiple of 4. -/
inductive Reg where
  | cmd | status | blkcnt | variant | altshift | ilen | olen
  | keyHi | keyLo | ivHi | ivLo | dinHi | dinLo | doutHi | doutLo | chainHi | chainLo
  | trInfo | trInHi | trInLo | trIpHi | trIpLo | trFpHi | trFpLo | trOutHi | trOutLo
  | ksC0 | ksD0
  | ksInfo (i : Fin 16) | ksC (i : Fin 16) | ksD (i : Fin 16) | ksKHi (i : Fin 16) | ksKLo (i : Fin 16)
  | trL (i : Fin 16) | trR (i : Fin 16) | trKHi (i : Fin 16) | trKLo (i : Fin 16)
  | trEHi (i : Fin 16) | trELo (i : Fin 16) | trXHi (i : Fin 16) | trXLo (i : Fin 16)
  | trS (i : Fin 16) | trP (i : Fin 16) | trBlkHi (i : Fin 16) | trBlkLo (i : Fin 16)
  | ibufWord (a : Nat) | obufWord (a : Nat)
  deriving DecidableEq, Repr

/-- What reaches the engine from outside (60_exceptions R253): a host access, or a hard reset.
An access has a width in bits and a byte offset from BASE; only width 32 at an aligned, listed offset is performed (20_memory R54, R56).
The data of a write of another width is never looked at, because that access is refused. -/
inductive HostEvent where
  | read (width : Nat) (offset : Nat)
  | write (width : Nat) (offset : Nat) (data : Word)
  | hardReset
  deriving DecidableEq, Repr

/-- What the bus answered to the last host access (60_exceptions R252, R253). -/
inductive Response where
  /-- No access has been answered since the hard reset. -/
  | idle
  /-- A read was performed and returned this word. -/
  | data (w : Word)
  /-- A write was performed. -/
  | ack
  /-- The access was refused: the bus's error response, with no data (20_memory R56). -/
  | busError
  deriving DecidableEq, Repr

/-- Fault reasons: there is none.
"No outcome is trap, hang or undefined" (60_exceptions R252): every host access in every state has an outcome, and an error of a command is recorded in STATUS (R236), so nobody raises a fault (log entry 8). -/
inductive Fault where
  deriving DecidableEq, Repr

/-- Refusal reasons. -/
inductive Refusal where
  /-- Raised by `exec` alone, for an instruction that has no meaning yet; every instruction has one, so nobody raises it.
  Safe: the model would stop where the engine goes on. -/
  | notModelled (mnemonic : String)
  deriving DecidableEq, Repr

/-- The state of the engine, every piece that 10_state names, then five fields of the model's own. -/
structure State where
  /-- STATUS (R17). -/
  status : Status
  /-- BLKCNT (R18). -/
  blkcnt : Word
  /-- VARIANT (R19). -/
  variant : Variant
  /-- ALTSHIFT (R20). -/
  altshift : Word
  /-- ILEN (R21). -/
  ilen : Word
  /-- OLEN (R22). -/
  olen : Word
  /-- KEY (R11). -/
  key : Block
  /-- IV (R12). -/
  iv : Block
  /-- DIN (R14). -/
  din : Block
  /-- DOUT (R15). -/
  dout : Block
  /-- CHAIN (R16). -/
  chain : Block
  /-- The key-schedule bank KS (R24). -/
  ks : KsBank
  /-- The trace bank TR (R26). -/
  tr : TrBank
  /-- The input buffer IBUF (R29). -/
  ibuf : Memory
  /-- The output buffer OBUF (R29). -/
  obuf : Memory
  /-- The model's own: the parameter BUF_BYTES (00_scope R6), which no step changes (log entry 5). -/
  bufBytes : Nat
  /-- The model's own: what has not reached the engine yet, oldest first (60_exceptions R253; log entry 1). -/
  pending : List HostEvent
  /-- The model's own: the bus's answer to the last access (log entry 2). -/
  resp : Response
  /-- The model's own: how many draws have been made, the argument of `Config.draw` (log entry 3). -/
  draws : Nat
  /-- The model's own: how many hard resets have been taken, the argument of the free buffer bytes (log entry 4). -/
  epoch : Nat
  deriving DecidableEq, Repr

/-- STATUS after reset: all fields 0 (R36). -/
def Status.zero : Status :=
  { err := .completed, errs := false, padinv := false, trvalid := false, ksvalid := false, mode := .ecb }

/-- VARIANT after reset: 0, standard DES (R36). -/
def Variant.zero : Variant :=
  { skipIp := false, skipFp := false, skipSwap := false, revKeys := false, altShift := false, nr := 0#5, swapr := 0#5 }

/-- A KS record after reset (R36). -/
def KsRecord.zero : KsRecord := { shift := 0#2, c := 0#28, d := 0#28, k := 0#48 }

/-- The bank KS after reset (R36). -/
def KsBank.zero : KsBank := { c0 := 0#28, d0 := 0#28, recs := Vector.replicate 16 KsRecord.zero }

/-- A TR record with every field 0 (R28, R36). -/
def TrRecord.zero : TrRecord :=
  { l := 0#32, r := 0#32, k := 0#48, e := 0#48, x := 0#48, s := 0#32, p := 0#32, blk := 0#64 }

/-- The bank TR after reset (R36). -/
def TrBank.zero : TrBank :=
  { len := 0#5, dir := .enc, inp := 0#64, ip := 0#64, fp := 0#64, out := 0#64,
    recs := Vector.replicate 16 TrRecord.zero }

/-- The machine right after reset, every register as the table of 10_state R36 has it.
Both buffers list nothing: their contents are unspecified (BUF_RESET, log entry 4).
Of the model's own fields, `bufBytes` is 4096, the value of every vector of the spec (log entry 5); nothing is pending (log entry 1), nothing has been answered (log entry 2), and the two counters are 0 (log entries 3 and 4). -/
def State.reset : State :=
  { status := Status.zero
    blkcnt := 0#32
    variant := Variant.zero
    altshift := 0#32
    ilen := 0#32
    olen := 0#32
    key := 0#64
    iv := 0#64
    din := 0#64
    dout := 0#64
    chain := 0#64
    ks := KsBank.zero
    tr := TrBank.zero
    ibuf := []
    obuf := []
    bufBytes := 4096
    pending := []
    resp := .idle
    draws := 0
    epoch := 0 }

end Sys2Proof.Machine
end

