-- ==== Sys2Proof/Machine/Flags.lean ====
section
/-! DEFINITION. The words of STATUS and VARIANT and the numbers of modes, directions and error codes (10_state R17, R19, R27; 30_encoding R73; 60_exceptions R230). -/

namespace Sys2Proof.Machine

/-- The number of a mode: 0 ECB, 1 CBC, 2 CFB, 3 OFB, 4 CTR (30_encoding R73). -/
def modeNumber (m : Mode) : BitVec 3 :=
  match m with
  | .ecb => 0#3
  | .cbc => 1#3
  | .cfb => 2#3
  | .ofb => 3#3
  | .ctr => 4#3

/-- The number in TR.DIR: 0 encrypt, 1 decrypt (10_state R27). -/
def dirBit (d : Dir) : BitVec 1 :=
  match d with
  | .enc => 0#1
  | .dec => 1#1

/-- The code in `STATUS.ERR` (60_exceptions R230). -/
def errNumber (e : ErrCode) : BitVec 3 :=
  match e with
  | .completed => 0#3
  | .inputFormat => 1#3
  | .length => 2#3
  | .missingIv => 3#3
  | .illegalCommand => 5#3

/-- The word of STATUS: ERR 2:0, ERRS 3, PADINV 4, TRVALID 5, KSVALID 6, MODE 10:8, the rest 0 (10_state R17, R32). -/
def statusWord (t : Status) : Word :=
  0#21 ++ modeNumber t.mode ++ 0#1 ++ BitVec.ofBool t.ksvalid ++ BitVec.ofBool t.trvalid
    ++ BitVec.ofBool t.padinv ++ BitVec.ofBool t.errs ++ errNumber t.err

/-- What a host write of `w` stores in VARIANT: the defined bits, the rest ignored (10_state R19, R32). -/
def variantOfWord (w : Word) : Variant :=
  { skipIp := w.getLsbD 0
    skipFp := w.getLsbD 1
    skipSwap := w.getLsbD 2
    revKeys := w.getLsbD 3
    altShift := w.getLsbD 4
    nr := w.extractLsb' 8 5
    swapr := w.extractLsb' 16 5 }

/-- The word of VARIANT, reserved bits 0 (10_state R19, R32). -/
def variantWord (v : Variant) : Word :=
  0#11 ++ v.swapr ++ 0#3 ++ v.nr ++ 0#3 ++ BitVec.ofBool v.altShift ++ BitVec.ofBool v.revKeys
    ++ BitVec.ofBool v.skipSwap ++ BitVec.ofBool v.skipFp ++ BitVec.ofBool v.skipIp

end Sys2Proof.Machine
end

