-- ==== Sys2Proof/Config.lean ====
section
/-! DEFINITION. The free values: what the spec leaves to the world outside the engine. None of them has a body, so no proof can know a value of one. -/

namespace Sys2Proof

/-- What the randomness source RND delivers at its n-th draw, "under no law" (47_system_commands R222; log entry 3).
It is applied to the counter `State.draws`, which every draw advances. -/
opaque Config.draw : Nat → Block

/-- BUF_RESET for IBUF: what the byte at an offset holds after the hard reset of a given number, until it is written
(10_state R36; log entry 4).  The first argument is the counter `State.epoch`, the second the byte offset. -/
opaque Config.ibufReset : Nat → Nat → Byte

/-- BUF_RESET for OBUF, as `Config.ibufReset` for IBUF (10_state R36; log entry 4). -/
opaque Config.obufReset : Nat → Nat → Byte

end Sys2Proof
end

