-- ==== Sys2Proof/Machine/Primitives.lean ====
section
/-! DEFINITION. The primitive operations of the bit/table engine (00_scope R7, R8; 40_tables_primitives R90 to R92, R99, R100, R109): pure functions of their arguments, no state. -/

namespace Sys2Proof.Machine

/-- `pos(v, N, p)`: position `p` of `v` counted from the most significant end, starting at 1 (R7). -/
def pos {N : Nat} (v : BitVec N) (p : Nat) : Bool := v.getMsbD (p - 1)

/-- `perm(v, N, T)`: the `M`-bit value whose position i is position `T[i]` of `v` (R90).
`M` is the number of entries of `T` wherever the engine uses it. -/
def perm {N : Nat} (M : Nat) (T : List Nat) (v : BitVec N) : BitVec M :=
  (BitVec.ofBoolListBE (T.map (pos v))).setWidth M

/-- `rotl(v, N, n)`: rotation left by `n mod N` places (R91). -/
def rotl {N : Nat} (v : BitVec N) (n : Nat) : BitVec N := v.rotateLeft n

/-- `chunk(v, N, w)` for `w` dividing `N`: the groups of `w` bits, group 1 (the most significant) first (R99). -/
def chunk {N : Nat} (w : Nat) (v : BitVec N) : List (BitVec w) :=
  (List.range (N / w)).map fun j => v.extractLsb' (N - (j + 1) * w) w

/-- The hexadecimal character of a nibble, lower case as the document writes its vectors (R100). -/
def hexChar (d : BitVec 4) : Char :=
  ['0', '1', '2', '3', '4', '5', '6', '7', '8', '9', 'a', 'b', 'c', 'd', 'e', 'f'].getD d.toNat '0'

/-- The nibble a lower-case hexadecimal character stands for (R100). -/
def hexValue (c : Char) : BitVec 4 :=
  BitVec.ofNat 4 (['0', '1', '2', '3', '4', '5', '6', '7', '8', '9', 'a', 'b', 'c', 'd', 'e', 'f'].idxOf c)

/-- `hex(v, N)`: N/4 characters, the first the most significant nibble (R100). It fixes how literals denote values; no command uses it. -/
def hex {N : Nat} (v : BitVec N) : List Char := (chunk 4 v).map hexChar

/-- The inverse of `hex`: the `N`-bit value that N/4 hexadecimal characters denote (R100). -/
def unhex (N : Nat) (cs : List Char) : BitVec N :=
  cs.foldl (fun acc c => (acc <<< 4) ||| (hexValue c).setWidth N) (0#N)

/-- `SBOX(j, g)` for j = 1 to 8: row `2·pos(g,6,1) + pos(g,6,6)`, column `8·pos(g,6,2) + 4·pos(g,6,3) + 2·pos(g,6,4) + pos(g,6,5)` (R109). -/
def sbox (j : Nat) (g : BitVec 6) : BitVec 4 :=
  let row := 2 * (pos g 1).toNat + (pos g 6).toNat
  let col := 8 * (pos g 2).toNat + 4 * (pos g 3).toNat + 2 * (pos g 4).toNat + (pos g 5).toNat
  BitVec.ofNat 4 (((sboxTable j).getD row []).getD col 0)

/-- The more significant word of a 64-bit value, `X[63:32]` (10_state R31). -/
def hiWord (x : Block) : Word := x.extractLsb' 32 32

/-- The less significant word of a 64-bit value, `X[31:0]` (10_state R31). -/
def loWord (x : Block) : Word := x.extractLsb' 0 32

/-- `x` with its more significant word replaced. -/
def withHi (x : Block) (w : Word) : Block := w ++ loWord x

/-- `x` with its less significant word replaced. -/
def withLo (x : Block) (w : Word) : Block := hiWord x ++ w

/-- `bytes8(v)`: the 8 bytes of a block, most significant first (R7; 20_memory R50). -/
def bytes8 (v : Block) : List Byte := chunk 8 v

/-- The big-endian value of the `n` bytes `f a`, `f (a + 1)`, ..., the byte at `a` the most significant:
`MemRead` of a buffer whose bytes are `f` (R7; 20_memory R50). With n = 8 it is `blk`. -/
def bytesValue (f : Nat → Byte) (a : Nat) : (n : Nat) → BitVec (8 * n)
  | 0 => 0#0
  | n + 1 => bytesValue f a n ++ f (a + n)

end Sys2Proof.Machine
end

