-- ==== Sys2Proof/Machine/Ops.lean ====
section
/-! DEFINITION. The named operations over the buffers and the registers that the commands share, the error record (60_exceptions R236) first among them. -/

namespace Sys2Proof.Machine

/-! ### Memory -/

/-- The canonical form of a buffer: offsets strictly rising.
An unlisted offset reads as no value, so no entry can equal what an unlisted offset reads as. -/
abbrev Memory.wf (m : Memory) : Prop := m.Pairwise fun x y => x.1 < y.1

/-- Every listed offset is below `bound`. -/
abbrev Memory.within (bound : Nat) (m : Memory) : Prop := ∀ c ∈ m, c.1 < bound

/-- The byte that was written at offset `a`, or none if none was: what an unlisted offset reads as (log entry 4). -/
def Memory.read (m : Memory) (a : Nat) : Option Byte :=
  match m with
  | [] => none
  | (x, c) :: rest => if a = x then some c else Memory.read rest a

/-- `m` with byte `b` at offset `a`, in canonical form if `m` is. -/
def Memory.write (m : Memory) (a : Nat) (b : Byte) : Memory :=
  match m with
  | [] => [(a, b)]
  | (x, c) :: rest =>
    if a < x then (a, b) :: (x, c) :: rest
    else if a = x then (a, b) :: rest
    else (x, c) :: Memory.write rest a b

/-- `MemWrite`: the `n` bytes of `v` at offsets `a`, `a + 1`, ..., the most significant byte at `a` (00_scope R7; 20_memory R50). -/
def Memory.writeBytes (m : Memory) (a : Nat) : (n : Nat) → BitVec (8 * n) → Memory
  | 0, _ => m
  | n + 1, v => Memory.write (Memory.writeBytes m a n (v.extractLsb' 8 (8 * n))) (a + n) (v.extractLsb' 0 8)

/-- `IBUF[a]`: the byte written there, or the free byte it holds since the hard reset (10_state R36). -/
def State.ibufByte (s : State) (a : Nat) : Byte := (s.ibuf.read a).getD (Config.ibufReset s.epoch a)

/-- `OBUF[a]`: the byte written there, or the free byte it holds since the hard reset (10_state R36). -/
def State.obufByte (s : State) (a : Nat) : Byte := (s.obuf.read a).getD (Config.obufReset s.epoch a)

/-- `MemRead(IBUF, a, n)` (00_scope R7). -/
def State.ibufRead (s : State) (a n : Nat) : BitVec (8 * n) := bytesValue s.ibufByte a n

/-- The same for OBUF; the host's window reads it (20_memory R53). -/
def State.obufRead (s : State) (a n : Nat) : BitVec (8 * n) := bytesValue s.obufByte a n

/-- `MemWrite(OBUF, a, 8, v)` (00_scope R7). -/
def State.obufWrite (a : Nat) (v : Block) (s : State) : State :=
  { s with obuf := s.obuf.writeBytes a 8 v }

/-- A host write of a word at offset `a` of IBUF (20_memory R52). -/
def State.ibufWrite (a : Nat) (w : Word) (s : State) : State :=
  { s with ibuf := s.ibuf.writeBytes a 4 w }

/-! ### The error record -/

/-- Completion: `STATUS.ERR <- 0`, ERRS unchanged (60_exceptions R236). -/
def State.complete (s : State) : State :=
  { s with status := { s.status with err := .completed } }

/-- `Fail(c)`: `STATUS.ERR <- c`, `STATUS.ERRS <- 1`, and nothing else changes (60_exceptions R236).
This is the whole of taking an error: there is no handler, no saved register, no mode change (R241), and so no return (R242). -/
def State.fail (c : ErrCode) (s : State) : State :=
  { s with status := { s.status with err := c, errs := true } }

/-! ### Register updates -/

/-- `KEY <- v`, a host write: it also clears `STATUS.KSVALID` (10_state R11, R39). -/
def State.hostSetKey (v : Block) (s : State) : State :=
  { s with key := v, status := { s.status with ksvalid := false } }

/-- `IV <- v`. -/
def State.setIv (v : Block) (s : State) : State := { s with iv := v }

/-- `DIN <- v`. -/
def State.setDin (v : Block) (s : State) : State := { s with din := v }

/-- `DOUT <- v`. -/
def State.setDout (v : Block) (s : State) : State := { s with dout := v }

/-- `CHAIN <- v`. -/
def State.setChain (v : Block) (s : State) : State := { s with chain := v }

/-- `BLKCNT <- (BLKCNT + 1) mod 2^32` (10_state R18). -/
def State.countBlock (s : State) : State := { s with blkcnt := s.blkcnt + 1#32 }

/-- `VARIANT <- v`. -/
def State.setVariant (v : Variant) (s : State) : State := { s with variant := v }

/-- `ALTSHIFT <- w`. -/
def State.setAltshift (w : Word) (s : State) : State := { s with altshift := w }

/-- `ILEN <- w`: all 32 bits are stored (10_state R21). -/
def State.setIlen (w : Word) (s : State) : State := { s with ilen := w }

/-- `OLEN <- n` (10_state R22). -/
def State.setOlen (n : Nat) (s : State) : State := { s with olen := BitVec.ofNat 32 n }

/-- `STATUS.PADINV <- b`. -/
def State.setPadinv (b : Bool) (s : State) : State :=
  { s with status := { s.status with padinv := b } }

/-- `StoreKS`: the whole bank KS, and `STATUS.KSVALID <- 1` (41_key_schedule R125). -/
def State.storeKs (b : KsBank) (s : State) : State :=
  { s with ks := b, status := { s.status with ksvalid := true } }

/-- `StoreTR`: the whole bank TR, and `STATUS.TRVALID <- 1` (43_block_cipher R142). -/
def State.storeTr (t : TrBank) (s : State) : State :=
  { s with tr := t, status := { s.status with trvalid := true } }

/-- The writes of `MINIT(mode)` but for `STATUS.ERR`: MODE, `CHAIN <- IV`, `BLKCNT <- 0`, `TRVALID <- 0` (44_mode_chain R161). -/
def State.startChain (m : Mode) (s : State) : State :=
  { s with status := { s.status with mode := m, trvalid := false }, chain := s.iv, blkcnt := 0#32 }

/-- `IV <- draw64()`: one draw from RND, a free value, always stored in IV (47_system R222). -/
def State.drawIv (s : State) : State :=
  { s with iv := Config.draw s.draws, draws := s.draws + 1 }

/-- `STATUS.ERR <- 0`, `STATUS.ERRS <- 0` (47_system R223). -/
def State.clearErrors (s : State) : State :=
  { s with status := { s.status with err := .completed, errs := false } }

/-- SRESET: every register and both banks at their reset values, the buffers unchanged (10_state R36; 47_system R224). -/
def State.softReset (s : State) : State :=
  { State.reset with
    ibuf := s.ibuf, obuf := s.obuf, bufBytes := s.bufBytes, pending := s.pending, resp := s.resp,
    draws := s.draws, epoch := s.epoch }

/-- The hard reset: as SRESET, and the contents of both buffers are unspecified afterwards, anew (10_state R36; 70_reset R260).
What is still pending on the host's side stays pending. -/
def State.hardReset (s : State) : State :=
  { State.reset with
    bufBytes := s.bufBytes, pending := s.pending, draws := s.draws, epoch := s.epoch + 1 }

/-- The bus answers an access. -/
def State.respond (r : Response) (s : State) : State := { s with resp := r }

end Sys2Proof.Machine
end

