-- ==== Sys2Proof/Machine/Bus.lean ====
section
/-! DEFINITION. The host's side of the engine: the register map (10_state R31), what a host read returns and a host write does (R39; 20_memory R50 to R56), and the hard reset (70_reset R260). -/

namespace Sys2Proof.Machine

/-- The registers below 0x200 (10_state R31). -/
def locateControl (offset : Nat) : Option Reg :=
  match offset with
  | 0x00 => some .cmd
  | 0x04 => some .status
  | 0x08 => some .blkcnt
  | 0x0C => some .variant
  | 0x10 => some .altshift
  | 0x14 => some .ilen
  | 0x18 => some .olen
  | 0x20 => some .keyHi
  | 0x24 => some .keyLo
  | 0x28 => some .ivHi
  | 0x2C => some .ivLo
  | 0x30 => some .dinHi
  | 0x34 => some .dinLo
  | 0x38 => some .doutHi
  | 0x3C => some .doutLo
  | 0x40 => some .chainHi
  | 0x44 => some .chainLo
  | 0x80 => some .trInfo
  | 0x88 => some .trInHi
  | 0x8C => some .trInLo
  | 0x90 => some .trIpHi
  | 0x94 => some .trIpLo
  | 0x98 => some .trFpHi
  | 0x9C => some .trFpLo
  | 0xA0 => some .trOutHi
  | 0xA4 => some .trOutLo
  | _ => none

/-- The word at byte `field` of the record `KS[i + 1]`, whose stride is 0x20 (10_state R31). -/
def locateKsField (i : Fin 16) (field : Nat) : Option Reg :=
  match field with
  | 0x00 => some (.ksInfo i)
  | 0x04 => some (.ksC i)
  | 0x08 => some (.ksD i)
  | 0x0C => some (.ksKHi i)
  | 0x10 => some (.ksKLo i)
  | _ => none

/-- The word at byte `field` of the record `TR[i]`, whose stride is 0x40 (10_state R31). -/
def locateTrField (i : Fin 16) (field : Nat) : Option Reg :=
  match field with
  | 0x00 => some (.trL i)
  | 0x04 => some (.trR i)
  | 0x08 => some (.trKHi i)
  | 0x0C => some (.trKLo i)
  | 0x10 => some (.trEHi i)
  | 0x14 => some (.trELo i)
  | 0x18 => some (.trXHi i)
  | 0x1C => some (.trXLo i)
  | 0x20 => some (.trS i)
  | 0x24 => some (.trP i)
  | 0x28 => some (.trBlkHi i)
  | 0x2C => some (.trBlkLo i)
  | _ => none

/-- The register at a byte offset from BASE, or none where the map lists none or the offset is not a multiple of 4 (10_state R31; 20_memory R54, R57).
A window ends at BUF_BYTES, and never reaches beyond its 0x10000 bytes. -/
def locate (bufBytes offset : Nat) : Option Reg :=
  if offset % 4 ≠ 0 then none
  else if offset < 0x200 then locateControl offset
  else if offset = 0x200 then some .ksC0
  else if offset = 0x204 then some .ksD0
  else if offset < 0x220 then none
  else if h : offset - 0x220 < 16 * 0x20 then
    locateKsField ⟨(offset - 0x220) / 0x20, by omega⟩ ((offset - 0x220) % 0x20)
  else if offset < 0x800 then none
  else if h : offset - 0x800 < 16 * 0x40 then
    locateTrField ⟨(offset - 0x800) / 0x40, by omega⟩ ((offset - 0x800) % 0x40)
  else if offset < 0x10000 then none
  else if offset < 0x20000 then
    if offset - 0x10000 + 3 < bufBytes then some (.ibufWord (offset - 0x10000)) else none
  else if offset < 0x30000 then
    if offset - 0x20000 + 3 < bufBytes then some (.obufWord (offset - 0x20000)) else none
  else none

/-- The more significant word of a 48-bit field, `zext_32(F[47:32])` (10_state R31). -/
def fieldHi (f : Subkey) : Word := (f.extractLsb' 32 16).setWidth 32

/-- The less significant word of a 48-bit field, `F[31:0]` (10_state R31). -/
def fieldLo (f : Subkey) : Word := f.extractLsb' 0 32

/-- The word TR_INFO: LEN in bits 4:0, DIR in bit 8 (10_state R31). -/
def trInfoWord (t : TrBank) : Word := 0#23 ++ dirBit t.dir ++ 0#3 ++ t.len

/-- The word `KS_INFO[i + 1]`: SHIFT in bits 1:0, the hardwired ROUND in bits 12:8 (10_state R25, R31). -/
def ksInfoWord (i : Fin 16) (r : KsRecord) : Word :=
  0#19 ++ BitVec.ofNat 5 (i.val + 1) ++ 0#6 ++ r.shift

/-- What a host read of a register returns (10_state R31, R32; 20_memory R51, R53). CMD reads 0 (R23). -/
def readReg (s : State) (r : Reg) : Word :=
  match r with
  | .cmd => 0#32
  | .status => statusWord s.status
  | .blkcnt => s.blkcnt
  | .variant => variantWord s.variant
  | .altshift => s.altshift
  | .ilen => s.ilen
  | .olen => s.olen
  | .keyHi => hiWord s.key
  | .keyLo => loWord s.key
  | .ivHi => hiWord s.iv
  | .ivLo => loWord s.iv
  | .dinHi => hiWord s.din
  | .dinLo => loWord s.din
  | .doutHi => hiWord s.dout
  | .doutLo => loWord s.dout
  | .chainHi => hiWord s.chain
  | .chainLo => loWord s.chain
  | .trInfo => trInfoWord s.tr
  | .trInHi => hiWord s.tr.inp
  | .trInLo => loWord s.tr.inp
  | .trIpHi => hiWord s.tr.ip
  | .trIpLo => loWord s.tr.ip
  | .trFpHi => hiWord s.tr.fp
  | .trFpLo => loWord s.tr.fp
  | .trOutHi => hiWord s.tr.out
  | .trOutLo => loWord s.tr.out
  | .ksC0 => s.ks.c0.setWidth 32
  | .ksD0 => s.ks.d0.setWidth 32
  | .ksInfo i => ksInfoWord i s.ks.recs[i]
  | .ksC i => s.ks.recs[i].c.setWidth 32
  | .ksD i => s.ks.recs[i].d.setWidth 32
  | .ksKHi i => fieldHi s.ks.recs[i].k
  | .ksKLo i => fieldLo s.ks.recs[i].k
  | .trL i => s.tr.recs[i].l
  | .trR i => s.tr.recs[i].r
  | .trKHi i => fieldHi s.tr.recs[i].k
  | .trKLo i => fieldLo s.tr.recs[i].k
  | .trEHi i => fieldHi s.tr.recs[i].e
  | .trELo i => fieldLo s.tr.recs[i].e
  | .trXHi i => fieldHi s.tr.recs[i].x
  | .trXLo i => fieldLo s.tr.recs[i].x
  | .trS i => s.tr.recs[i].s
  | .trP i => s.tr.recs[i].p
  | .trBlkHi i => hiWord s.tr.recs[i].blk
  | .trBlkLo i => loWord s.tr.recs[i].blk
  | .ibufWord a => s.ibufRead a 4
  | .obufWord a => s.obufRead a 4

/-- What a host write of `w` to a register other than CMD does, or none where the map marks the register read-only (10_state R31, R32, R39; 20_memory R52, R56). -/
def writeReg (s : State) (r : Reg) (w : Word) : Option State :=
  match r with
  | .variant => some (s.setVariant (variantOfWord w))
  | .altshift => some (s.setAltshift w)
  | .ilen => some (s.setIlen w)
  | .keyHi => some (s.hostSetKey (withHi s.key w))
  | .keyLo => some (s.hostSetKey (withLo s.key w))
  | .ivHi => some (s.setIv (withHi s.iv w))
  | .ivLo => some (s.setIv (withLo s.iv w))
  | .dinHi => some (s.setDin (withHi s.din w))
  | .dinLo => some (s.setDin (withLo s.din w))
  | .ibufWord a => some (s.ibufWrite a w)
  | _ => none

/-- What an event from outside comes to: it is done, or it is a command word for the decoder. -/
inductive BusResult where
  /-- The event is over and this is the state after it. -/
  | done (s : State)
  /-- A write to CMD: the word, and the state in which its command runs. -/
  | command (w : Word) (s : State)
  deriving DecidableEq, Repr

/-- The register an access of a width at an offset reaches, or none where the access is refused for its width, alignment or offset (20_memory R54, R56). -/
def target (s : State) (width offset : Nat) : Option Reg :=
  if width = 32 then locate s.bufBytes offset else none

/-- A refused access: the bus's error response, and no other change (20_memory R56). -/
def State.refuseAccess (s : State) : State := s.respond .busError

/-- A host read (R53, R56): the register's word, with no side effect (10_state R39). -/
def busRead (s : State) (width offset : Nat) : State :=
  match target s width offset with
  | some r => s.respond (.data (readReg s r))
  | none => s.refuseAccess

/-- A host write (R52, R55, R56): a word for CMD, a register's new value, or a refusal. -/
def busWrite (s : State) (width offset : Nat) (w : Word) : BusResult :=
  match target s width offset with
  | some .cmd => .command w (s.respond .ack)
  | some r =>
    match writeReg s r w with
    | some s' => .done (s'.respond .ack)
    | none => .done s.refuseAccess
  | none => .done s.refuseAccess

/-- One event from outside (60_exceptions R252, R253). -/
def busEvent (e : HostEvent) (s : State) : BusResult :=
  match e with
  | .read width offset => .done (busRead s width offset)
  | .write width offset w => busWrite s width offset w
  | .hardReset => .done s.hardReset

/-- The oldest event that has not reached the engine, and the state once it is taken from the list (20_memory R59). -/
def nextEvent (s : State) : Option (HostEvent × State) :=
  match s.pending with
  | [] => none
  | e :: rest => some (e, { s with pending := rest })

/-- `s` with a write of the word `w` to CMD as the next event to reach the engine. -/
def State.issueCommand (w : Word) (s : State) : State :=
  { s with pending := .write 32 0x00 w :: s.pending }

end Sys2Proof.Machine
end

