-- ==== Sys2Proof/Decode.lean ====
section
/-! DEFINITION. Command words: the decoder of 30_encoding R72, total on every 32-bit word and rejecting by name, then the encoder of R74 and R76 and the opcode table of R74. -/

namespace Sys2Proof

/-- Why a word is an illegal command (30_encoding R75). -/
inductive IllegalWord where
  /-- The opcode is above 0x0B. -/
  | opcodeAbove0B (opc : BitVec 8)
  /-- A must-be-zero bit is set. -/
  | nonzeroReservedBits
  /-- The MODE field is 5, 6 or 7. -/
  | reservedMode (mode : BitVec 3)
  deriving DecidableEq, Repr

/-- The OPC field, bits 7:0 (R71, R73). -/
def opcField (w : Word) : BitVec 8 := w.extractLsb' 0 8

/-- The MODE field, bits 10:8 (R71, R73). -/
def modeField (w : Word) : BitVec 3 := w.extractLsb' 8 3

/-- The RIV field, bit 11 (R71, R73). -/
def rivField (w : Word) : Bool := w.getLsbD 11

/-- The MODE field if it is one of the five modes (R72: `if w[10:8] > 4: raise IllegalCommand`). -/
def decodeMode (w : Word) : Except IllegalWord (BitVec 3) :=
  if 4 < (modeField w).toNat then .error (.reservedMode (modeField w)) else .ok (modeField w)

/-- Format Z: no operand, bits 31:8 must be zero (R71). -/
def decodeZ (w : Word) (i : Instr) : Except IllegalWord Instr :=
  if w.extractLsb' 8 24 ≠ 0#24 then .error .nonzeroReservedBits else .ok i

/-- Format M: MODE in bits 10:8, bits 31:11 must be zero (R71). -/
def decodeM (w : Word) (build : BitVec 3 → Instr) : Except IllegalWord Instr :=
  if w.extractLsb' 11 21 ≠ 0#21 then .error .nonzeroReservedBits
  else match decodeMode w with
    | .error r => .error r
    | .ok m => .ok (build m)

/-- Format MR: MODE in bits 10:8, RIV in bit 11, bits 31:12 must be zero (R71). -/
def decodeMR (w : Word) (build : BitVec 3 → Bool → Instr) : Except IllegalWord Instr :=
  if w.extractLsb' 12 20 ≠ 0#20 then .error .nonzeroReservedBits
  else match decodeMode w with
    | .error r => .error r
    | .ok m => .ok (build m (rivField w))

/-- `Decode` of 30_encoding R72: every word selects exactly one command or is illegal. -/
def decode (w : Word) : Except IllegalWord Instr :=
  match (opcField w).toNat with
  | 0x00 => decodeZ w .nop
  | 0x01 => decodeZ w .keyexp
  | 0x02 => decodeZ w .encblk
  | 0x03 => decodeZ w .decblk
  | 0x04 => decodeM w .minit
  | 0x05 => decodeZ w .mblke
  | 0x06 => decodeZ w .mblkd
  | 0x07 => decodeMR w .msgenc
  | 0x08 => decodeM w .msgdec
  | 0x09 => decodeZ w .ivgen
  | 0x0A => decodeZ w .clrerr
  | 0x0B => decodeZ w .sreset
  | _ => .error (.opcodeAbove0B (opcField w))

/-- The command the decoder reads from `w`, numbered as spec/opcode_table.json numbers bits.
A command is one word, so `nbits` is 32; bits at and above `nbits` are 0, and a number that needs more than 32 bits is no command word. -/
def decodeTableWord (nbits w : Nat) : Option Instr :=
  if w % 2 ^ nbits < 2 ^ 32 then
    match decode (BitVec.ofNat 32 (w % 2 ^ nbits)) with
    | .ok i => some i
    | .error _ => none
  else none

/-- The OPC value of a command (R74). -/
def Instr.opc (i : Instr) : BitVec 8 :=
  match i with
  | .nop => 0x00#8
  | .keyexp => 0x01#8
  | .encblk => 0x02#8
  | .decblk => 0x03#8
  | .minit _ => 0x04#8
  | .mblke => 0x05#8
  | .mblkd => 0x06#8
  | .msgenc _ _ => 0x07#8
  | .msgdec _ => 0x08#8
  | .ivgen => 0x09#8
  | .clrerr => 0x0A#8
  | .sreset => 0x0B#8

/-- The MODE field a command's word carries; format Z has zeros there (R71). -/
def Instr.modeBits (i : Instr) : BitVec 3 :=
  match i with
  | .minit mode => mode
  | .msgenc mode _ => mode
  | .msgdec mode => mode
  | .nop => 0#3
  | .keyexp => 0#3
  | .encblk => 0#3
  | .decblk => 0#3
  | .mblke => 0#3
  | .mblkd => 0#3
  | .ivgen => 0#3
  | .clrerr => 0#3
  | .sreset => 0#3

/-- The RIV bit a command's word carries; only format MR has one (R71). -/
def Instr.rivBit (i : Instr) : Bool :=
  match i with
  | .msgenc _ riv => riv
  | .nop => false
  | .keyexp => false
  | .encblk => false
  | .decblk => false
  | .minit _ => false
  | .mblke => false
  | .mblkd => false
  | .msgdec _ => false
  | .ivgen => false
  | .clrerr => false
  | .sreset => false

/-- The word of a command, `OPC | MODE << 8 | RIV << 11` (R76). -/
def encode (i : Instr) : Word :=
  0#20 ++ BitVec.ofBool i.rivBit ++ i.modeBits ++ i.opc

/-- The mnemonic of a command, as spec/opcode_table.json spells it. -/
def Instr.mnemonic (i : Instr) : String :=
  match i with
  | .nop => "NOP"
  | .keyexp => "KEYEXP"
  | .encblk => "ENCBLK"
  | .decblk => "DECBLK"
  | .minit _ => "MINIT"
  | .mblke => "MBLKE"
  | .mblkd => "MBLKD"
  | .msgenc _ _ => "MSGENC"
  | .msgdec _ => "MSGDEC"
  | .ivgen => "IVGEN"
  | .clrerr => "CLRERR"
  | .sreset => "SRESET"

/-- One row of the opcode map of 30_encoding R74. -/
structure OpcodeRow where
  mnemonic : String
  mask : Word
  pattern : Word
  /-- Whether the row has a MODE field, which must then be 0 to 4. -/
  hasMode : Bool
  deriving DecidableEq, Repr

/-- The opcode map of 30_encoding R74: mnemonic, mask, match, and whether there is a MODE field. -/
def opcodeTable : List OpcodeRow :=
  [⟨"NOP", 0xFFFFFFFF#32, 0x00000000#32, false⟩,
   ⟨"KEYEXP", 0xFFFFFFFF#32, 0x00000001#32, false⟩,
   ⟨"ENCBLK", 0xFFFFFFFF#32, 0x00000002#32, false⟩,
   ⟨"DECBLK", 0xFFFFFFFF#32, 0x00000003#32, false⟩,
   ⟨"MINIT", 0xFFFFF8FF#32, 0x00000004#32, true⟩,
   ⟨"MBLKE", 0xFFFFFFFF#32, 0x00000005#32, false⟩,
   ⟨"MBLKD", 0xFFFFFFFF#32, 0x00000006#32, false⟩,
   ⟨"MSGENC", 0xFFFFF0FF#32, 0x00000007#32, true⟩,
   ⟨"MSGDEC", 0xFFFFF8FF#32, 0x00000008#32, true⟩,
   ⟨"IVGEN", 0xFFFFFFFF#32, 0x00000009#32, false⟩,
   ⟨"CLRERR", 0xFFFFFFFF#32, 0x0000000A#32, false⟩,
   ⟨"SRESET", 0xFFFFFFFF#32, 0x0000000B#32, false⟩]

/-- A word selects a row: `w & mask = match`, and the MODE field, where there is one, is 0 to 4 (R74). -/
abbrev OpcodeRow.Selects (row : OpcodeRow) (w : Word) : Prop :=
  w &&& row.mask = row.pattern ∧ (row.hasMode = true → (modeField w).toNat ≤ 4)

/-- The 29 legal command words that 30_encoding R74 lists. -/
def legalWords : List Word :=
  [0x00000000#32, 0x00000001#32, 0x00000002#32, 0x00000003#32, 0x00000005#32, 0x00000006#32,
   0x00000009#32, 0x0000000A#32, 0x0000000B#32,
   0x00000004#32, 0x00000104#32, 0x00000204#32, 0x00000304#32, 0x00000404#32,
   0x00000007#32, 0x00000107#32, 0x00000207#32, 0x00000307#32, 0x00000407#32,
   0x00000807#32, 0x00000907#32, 0x00000A07#32, 0x00000B07#32, 0x00000C07#32,
   0x00000008#32, 0x00000108#32, 0x00000208#32, 0x00000308#32, 0x00000408#32]

end Sys2Proof
end

