-- ==== Sys2Proof/Machine/Operands.lean ====
section
/-! DEFINITION. The operand forms of the commands: the MODE field, the variant parameters (46_variant R200), the padded payload (45_mode_message R180) and the body offset (R183, R184). -/

namespace Sys2Proof.Machine

/-- The mode a MODE field names; 5, 6 and 7 are reserved and name none (30_encoding R73). -/
def modeOfBits (b : BitVec 3) : Option Mode :=
  match b.toNat with
  | 0 => some .ecb
  | 1 => some .cbc
  | 2 => some .cfb
  | 3 => some .ofb
  | 4 => some .ctr
  | _ => none

/-- The record `vp` that the core takes (43_block_cipher R141): `nr` and `swapr` are 0 to 16, `altsh` has 16 entries. -/
structure VariantParams where
  skipIp : Bool
  skipFp : Bool
  skipSwap : Bool
  revKeys : Bool
  altShift : Bool
  nr : Nat
  swapr : Nat
  altsh : List (BitVec 2)
  deriving DecidableEq, Repr

/-- The sixteen 2-bit entries of ALTSHIFT, the entry for round 1 first (10_state R20). -/
def altShiftEntries (w : Word) : List (BitVec 2) :=
  (List.range 16).map fun i => w.extractLsb' (2 * i) 2

/-- The standard parameters `STD`: every field 0 (43_block_cipher R141). -/
def stdParams : VariantParams :=
  { skipIp := false, skipFp := false, skipSwap := false, revKeys := false, altShift := false,
    nr := 0, swapr := 0, altsh := altShiftEntries 0#32 }

/-- `VariantParams()`: the registers VARIANT and ALTSHIFT as a record, or none where it raises InputFormatError, NR or SWAPR above 16 (46_variant R200). -/
def variantParams (s : State) : Option VariantParams :=
  if 16 < s.variant.nr.toNat ∨ 16 < s.variant.swapr.toNat then none
  else some
    { skipIp := s.variant.skipIp
      skipFp := s.variant.skipFp
      skipSwap := s.variant.skipSwap
      revKeys := s.variant.revKeys
      altShift := s.variant.altShift
      nr := s.variant.nr.toNat
      swapr := s.variant.swapr.toNat
      altsh := altShiftEntries s.altshift }

/-- The pad length of a payload of `n` bytes, `8 - (n mod 8)` (45_mode_message R180). -/
def padLen (n : Nat) : Nat := 8 - n % 8

/-- The number of blocks of the padded payload, `(n + padlen) / 8` (R180). -/
def padBlocks (n : Nat) : Nat := (n + padLen n) / 8

/-- `PadByte(a, n)`: the byte at offset `a` of the padded payload (R180). -/
def padByte (s : State) (n a : Nat) : Byte :=
  if a < n then s.ibufByte a else BitVec.ofNat 8 (padLen n)

/-- `PadBlock(i, n)`: block `i` of the padded payload (R180). -/
def padBlock (s : State) (n i : Nat) : Block := bytesValue (padByte s n) (8 * i) 8

/-- `o`: where the body starts, 0 in ECB and 8, after the IV, in every other mode (R183, R184, R185). -/
def bodyOffset (m : Mode) : Nat :=
  match m with
  | .ecb => 0
  | .cbc => 8
  | .cfb => 8
  | .ofb => 8
  | .ctr => 8

/-- `Unpad(m)` of the decrypted payload `OBUF[0..m)`: its length without the padding, and whether no valid padding was found (R181). -/
def unpad (s : State) (m : Nat) : Nat × Bool :=
  if m = 0 then (0, true)
  else
    let n := (s.obufByte (m - 1)).toNat
    if n < 1 ∨ 8 < n ∨ m < n then (m, true)
    else if (List.range n).all fun j => (s.obufByte (m - n + j)).toNat == n then (m - n, false)
    else (m, true)

end Sys2Proof.Machine
end

