-- ==== Sys2Proof/Machine/KeySchedule.lean ====
section
/-! DEFINITION. The key schedule generator and KEYEXP (41_key_schedule R120 to R125). -/

namespace Sys2Proof.Machine

/-- The records of rounds 1, 2, ... from the halves before round 1: each round rotates the result of the round before (R121). -/
def keyRounds : List (BitVec 2) → KeyHalf → KeyHalf → List KsRecord
  | [], _, _ => []
  | n :: rest, c, d =>
    let c' := rotl c n.toNat
    let d' := rotl d n.toNat
    { shift := n, c := c', d := d', k := perm 48 permutedChoice2 (c' ++ d') } :: keyRounds rest c' d'

/-- `KeySchedule(key, sh)` for 16 rotation amounts `sh`: the bank of C0, D0 and the 16 round records, in generation order (R121). -/
def keySchedule (key : Block) (sh : List (BitVec 2)) : KsBank :=
  let cd : BitVec 56 := perm 56 permutedChoice1 key
  let c0 : KeyHalf := cd.extractLsb' 28 28
  let d0 : KeyHalf := cd.extractLsb' 0 28
  let recs := keyRounds sh c0 d0
  { c0 := c0, d0 := d0, recs := Vector.ofFn fun i => recs.getD i.val KsRecord.zero }

/-- KEYEXP (R122): the schedule of KEY under the fixed shifts, whatever VARIANT and ALTSHIFT hold. -/
def execKeyexp (s : State) : Host.Outcome State Fault Refusal :=
  .next ((s.storeKs (keySchedule s.key standardShifts)).complete)

end Sys2Proof.Machine
end

