-- ==== Sys2Proof/Machine/Round.lean ====
section
/-! DEFINITION. The round function F and the round update (42_round_function R130 to R133). -/

namespace Sys2Proof.Machine

/-- The two halves of the working block, Left and Right (43_block_cipher R141). -/
structure Halves where
  l : Half
  r : Half
  deriving DecidableEq, Repr

/-- `L || R`. -/
def Halves.join (h : Halves) : Block := h.l ++ h.r

/-- The halves exchanged. -/
def Halves.swap (h : Halves) : Halves := { l := h.r, r := h.l }

/-- The halves of a block: positions 1 to 32 and 33 to 64 (R141). -/
def Halves.ofBlock (b : Block) : Halves := { l := hiWord b, r := loWord b }

/-- The S-box stage of F: group j of `x` through S-box j, group 1 the most significant (R131). -/
def substitute (x : Subkey) : Half :=
  let g := chunk 6 x
  sbox 1 (g.getD 0 0#6) ++ sbox 2 (g.getD 1 0#6) ++ sbox 3 (g.getD 2 0#6) ++ sbox 4 (g.getD 3 0#6)
    ++ sbox 5 (g.getD 4 0#6) ++ sbox 6 (g.getD 5 0#6) ++ sbox 7 (g.getD 6 0#6) ++ sbox 8 (g.getD 7 0#6)

/-- `E_out`, the first value of F (R131). -/
def expand (r : Half) : Subkey := perm 48 expansion r

/-- `P_out`, the value of F: expand, XOR with the subkey, substitute, permute (R131). -/
def roundF (r : Half) (k : Subkey) : Half := perm 32 roundPermutation (substitute (expand r ^^^ k))

/-- The halves after `Round(L, R, K)`: new Left = old Right, new Right = old Left XOR F (R132). -/
def roundHalves (h : Halves) (k : Subkey) : Halves := { l := h.r, r := h.l ^^^ roundF h.r k }

/-- The record of `Round(L, R, K)`: what went in, the four values of F, and the new block (R132, R133). -/
def roundRecord (h : Halves) (k : Subkey) : TrRecord :=
  let e := expand h.r
  let x := e ^^^ k
  let s := substitute x
  { l := h.l, r := h.r, k := k, e := e, x := x, s := s, p := perm 32 roundPermutation s,
    blk := (roundHalves h k).join }

end Sys2Proof.Machine
end

