-- ==== Sys2Proof/Machine/Block.lean ====
section
/-! DEFINITION. The single-block cipher: the core, ENCBLK and DECBLK (43_block_cipher R140 to R146; 46_variant R200 to R207). -/

namespace Sys2Proof.Machine

/-- The rotation amounts the key schedule uses: SHIFTS, or ALTSHIFT's under the hook ALT_SHIFT (R141; 46_variant R205). -/
def shiftAmounts (vp : VariantParams) : List (BitVec 2) :=
  if vp.altShift then vp.altsh else standardShifts

/-- The subkeys K_1 to K_16 of a bank, in generation order. -/
def subkeys (b : KsBank) : List Subkey := b.recs.toList.map fun r => r.k

/-- `seq`: the 16 subkeys forwards or reversed by direction, then reversed again under REV_KEYS (R141, R145; 46_variant R204). -/
def subkeySequence (b : KsBank) (dir : Dir) (rev : Bool) : List Subkey :=
  let seq := match dir with
    | .enc => subkeys b
    | .dec => (subkeys b).reverse
  if rev then seq.reverse else seq

/-- `n`, the number of rounds: 16, or NR where that is not 0 (R141; 46_variant R206). -/
def roundCount (vp : VariantParams) : Nat := if vp.nr = 0 then 16 else vp.nr

/-- The rounds in order, one per subkey, `i` of them executed before: the records, each written before the SWAPR exchange, and the final halves (R141; 46_variant R207). -/
def runRounds (swapr : Nat) : Nat → List Subkey → Halves → List TrRecord × Halves
  | _, [], h => ([], h)
  | i, k :: rest, h =>
    let h' := roundHalves h k
    let h'' := if swapr = i + 1 then h'.swap else h'
    let tail := runRounds swapr (i + 1) rest h''
    (roundRecord h k :: tail.1, tail.2)

/-- What one core invocation produces (R141): the schedule for StoreKS and the trace for StoreTR, whose `out` is the output block. -/
structure CoreResult where
  ks : KsBank
  tr : TrBank
  deriving DecidableEq, Repr

/-- The output block of a core invocation. -/
def CoreResult.out (c : CoreResult) : Block := c.tr.out

/-- `Core(block, key, dir, vp)` (R141), in the order of its pseudocode: key schedule, IP or identity, sequence, rounds, half-swap or not, FP or identity. -/
def cipherCore (block key : Block) (dir : Dir) (vp : VariantParams) : CoreResult :=
  let bank := keySchedule key (shiftAmounts vp)
  let ipb := if vp.skipIp then block else perm 64 initialPermutation block
  let n := roundCount vp
  let run := runRounds vp.swapr 0 ((subkeySequence bank dir vp.revKeys).take n) (Halves.ofBlock ipb)
  let pre := if vp.skipSwap then run.2.join else run.2.swap.join
  let out := if vp.skipFp then pre else perm 64 finalPermutation pre
  { ks := bank
    tr :=
      { len := BitVec.ofNat 5 n
        dir := dir
        inp := block
        ip := ipb
        fp := out
        out := out
        recs := Vector.ofFn fun i => run.1.getD i.val TrRecord.zero } }

/-- The writes of ENCBLK and DECBLK once the variant parameters are legal: StoreKS, DOUT, StoreTR, `ERR <- 0` (R143, R144). -/
def State.runBlock (dir : Dir) (vp : VariantParams) (s : State) : State :=
  let c := cipherCore s.din s.key dir vp
  (((s.storeKs c.ks).setDout c.out).storeTr c.tr).complete

/-- ENCBLK (R143): InputFormatError if NR or SWAPR is above 16, else one core invocation forwards. -/
def execEncblk (s : State) : Host.Outcome State Fault Refusal :=
  match variantParams s with
  | none => .next (s.fail .inputFormat)
  | some vp => .next (s.runBlock .enc vp)

/-- DECBLK (R144): as ENCBLK, with the core run backwards. -/
def execDecblk (s : State) : Host.Outcome State Fault Refusal :=
  match variantParams s with
  | none => .next (s.fail .inputFormat)
  | some vp => .next (s.runBlock .dec vp)

end Sys2Proof.Machine
end

