-- ==== Sys2Proof/Machine/Chain.lean ====
section
/-! DEFINITION. The mode-of-operation multiplexer, one block at a time: the chain step, MINIT, MBLKE and MBLKD (44_mode_chain R160 to R171). -/

namespace Sys2Proof.Machine

/-- What the multiplexer gives the core for a block `din` and a chain value `c`: the input and the direction (R163). -/
def coreInput (m : Mode) (dir : Dir) (din c : Block) : Block × Dir :=
  match m, dir with
  | .ecb, d => (din, d)
  | .cbc, .enc => (din ^^^ c, .enc)
  | .cbc, .dec => (din, .dec)
  | .cfb, _ => (c, .enc)
  | .ofb, _ => (c, .enc)
  | .ctr, _ => (c, .enc)

/-- What the multiplexer makes of the core's output `y`: the output block and the next chain value (R163). -/
def chainResult (m : Mode) (dir : Dir) (din c y : Block) : Block × Block :=
  match m, dir with
  | .ecb, _ => (y, c)
  | .cbc, .enc => (y, y)
  | .cbc, .dec => (y ^^^ c, din)
  | .cfb, .enc => (din ^^^ y, din ^^^ y)
  | .cfb, .dec => (din ^^^ y, din)
  | .ofb, _ => (din ^^^ y, y)
  | .ctr, _ => (din ^^^ y, c + 1#64)

/-- The core invocation of a chain step, always with the standard parameters (R162, R163). -/
def chainCore (m : Mode) (dir : Dir) (s : State) : CoreResult :=
  let x := coreInput m dir s.din s.chain
  cipherCore x.1 s.key x.2 stdParams

/-- `ChainStep(mode, dir)` (R163): StoreKS, DOUT, CHAIN, StoreTR if this is the first block of the chain, BLKCNT. -/
def State.chainStep (m : Mode) (dir : Dir) (s : State) : State :=
  let c := chainCore m dir s
  let r := chainResult m dir s.din s.chain c.out
  let s1 := ((s.storeKs c.ks).setDout r.1).setChain r.2
  let s2 := if s.blkcnt = 0#32 then s1.storeTr c.tr else s1
  s2.countBlock

/-- MINIT mode (R161). A reserved MODE names no mode: such a word is an illegal command (30_encoding R75; log entry 9). -/
def execMinit (mode : BitVec 3) (s : State) : Host.Outcome State Fault Refusal :=
  match modeOfBits mode with
  | none => .next (s.fail .illegalCommand)
  | some m => .next ((s.startChain m).complete)

/-- MBLKE (R164): one encrypting chain step in the latched mode. -/
def execMblke (s : State) : Host.Outcome State Fault Refusal :=
  .next ((s.chainStep s.status.mode .enc).complete)

/-- MBLKD (R165): one decrypting chain step in the latched mode. -/
def execMblkd (s : State) : Host.Outcome State Fault Refusal :=
  .next ((s.chainStep s.status.mode .dec).complete)

end Sys2Proof.Machine
end

