-- ==== Sys2Proof/Machine/Message.lean ====
section
/-! DEFINITION. The whole-message commands MSGENC and MSGDEC (45_mode_message R180 to R189). -/

namespace Sys2Proof.Machine

/-- Blocks 0 to `k - 1` of MSGENC, in increasing order (R183; 20_memory R64): pad block i into DIN, one chain step, DOUT to OBUF at `o + 8i`.
`n` is the payload length and `o` the body's offset. -/
def encryptBlocks (m : Mode) (o n : Nat) : Nat → State → State
  | 0, s => s
  | k + 1, s =>
    let s1 := encryptBlocks m o n k s
    let s2 := (s1.setDin (padBlock s1 n k)).chainStep m .enc
    s2.obufWrite (o + 8 * k) s2.dout

/-- Blocks 0 to `k - 1` of MSGDEC, in increasing order (R184; 20_memory R64): block i of the body into DIN, one chain step, DOUT to OBUF at `8i`. -/
def decryptBlocks (m : Mode) (o : Nat) : Nat → State → State
  | 0, s => s
  | k + 1, s =>
    let s1 := decryptBlocks m o k s
    let s2 := (s1.setDin (s1.ibufRead (o + 8 * k) 8)).chainStep m .dec
    s2.obufWrite (8 * k) s2.dout

/-- The IV that MSGENC starts from: a draw if RIV is set and the mode is not ECB, else register IV as it stands (R183). -/
def State.chooseIv (m : Mode) (riv : Bool) (s : State) : State :=
  if m ≠ .ecb ∧ riv = true then s.drawIv else s

/-- The IV at the head of the encrypted message, in every mode but ECB (R183, R185). -/
def State.prependIv (m : Mode) (s : State) : State :=
  if m ≠ .ecb then s.obufWrite 0 s.iv else s

/-- The IV that MSGDEC splits from the input, in every mode but ECB (R184, R185). -/
def State.splitIv (m : Mode) (s : State) : State :=
  if m ≠ .ecb then s.setIv (s.ibufRead 0 8) else s

/-- The writes of MSGENC once its check has passed (R183). -/
def State.encryptMessage (m : Mode) (riv : Bool) (s : State) : State :=
  let n := s.ilen.toNat
  let nb := padBlocks n
  let o := bodyOffset m
  let s1 := (((s.chooseIv m riv).startChain m).complete).prependIv m
  ((encryptBlocks m o n nb s1).setOlen (o + 8 * nb)).complete

/-- The writes of MSGDEC once its checks have passed, for a body of `len` bytes (R184). -/
def State.decryptMessage (m : Mode) (len : Nat) (s : State) : State :=
  let s1 := ((s.splitIv m).startChain m).complete
  let s2 := decryptBlocks m (bodyOffset m) (len / 8) s1
  let u := unpad s2 len
  ((s2.setOlen u.1).setPadinv u.2).complete

/-- MSGENC mode[, RIV] (R183): InputFormatError if `ILEN > BUF_BYTES - 16`, with no draw and no write.
A reserved MODE names no mode: such a word is an illegal command (30_encoding R75; log entry 9). -/
def execMsgenc (mode : BitVec 3) (riv : Bool) (s : State) : Host.Outcome State Fault Refusal :=
  match modeOfBits mode with
  | none => .next (s.fail .illegalCommand)
  | some m =>
    if s.bufBytes < s.ilen.toNat + 16 then .next (s.fail .inputFormat)
    else .next (s.encryptMessage m riv)

/-- MSGDEC mode (R184): InputFormatError, MissingIvError, LengthError, checked in that order (60_exceptions R239), each with no write.
A reserved MODE names no mode: such a word is an illegal command (30_encoding R75; log entry 9). -/
def execMsgdec (mode : BitVec 3) (s : State) : Host.Outcome State Fault Refusal :=
  match modeOfBits mode with
  | none => .next (s.fail .illegalCommand)
  | some m =>
    if s.bufBytes < s.ilen.toNat then .next (s.fail .inputFormat)
    else if m ≠ .ecb ∧ s.ilen.toNat < 16 then .next (s.fail .missingIv)
    else if (s.ilen.toNat - bodyOffset m) % 8 ≠ 0 then .next (s.fail .length)
    else .next (s.decryptMessage m (s.ilen.toNat - bodyOffset m))

end Sys2Proof.Machine
end

