-- ==== Sys2Proof/Machine/System.lean ====
section
/-! DEFINITION. The system commands NOP, IVGEN, CLRERR and SRESET (47_system_commands R220 to R224). -/

namespace Sys2Proof.Machine

/-- NOP (R220): `STATUS.ERR <- 0`, ERRS kept. -/
def execNop (s : State) : Host.Outcome State Fault Refusal := .next s.complete

/-- IVGEN (R221): `IV <- draw64()`. -/
def execIvgen (s : State) : Host.Outcome State Fault Refusal := .next s.drawIv.complete

/-- CLRERR (R223): `ERR <- 0`, `ERRS <- 0`. -/
def execClrerr (s : State) : Host.Outcome State Fault Refusal := .next s.clearErrors

/-- SRESET (R224): the reset state, but for the buffers. -/
def execSreset (s : State) : Host.Outcome State Fault Refusal := .next s.softReset

end Sys2Proof.Machine
end

