-- ==== Sys2Proof/Machine/Dispatch.lean ====
section
/-! DEFINITION. The dispatch: one arm per command, each a direct call of its meaning (60_exceptions R236, Execute). -/

namespace Sys2Proof.Machine

def exec (i : Instr) (s : State) : Host.Outcome State Fault Refusal :=
  match i with
  | .nop => Sys2Proof.Machine.execNop s
  | .keyexp => Sys2Proof.Machine.execKeyexp s
  | .encblk => Sys2Proof.Machine.execEncblk s
  | .decblk => Sys2Proof.Machine.execDecblk s
  | .minit mode => Sys2Proof.Machine.execMinit mode s
  | .mblke => Sys2Proof.Machine.execMblke s
  | .mblkd => Sys2Proof.Machine.execMblkd s
  | .msgenc mode riv => Sys2Proof.Machine.execMsgenc mode riv s
  | .msgdec mode => Sys2Proof.Machine.execMsgdec mode s
  | .ivgen => Sys2Proof.Machine.execIvgen s
  | .clrerr => Sys2Proof.Machine.execClrerr s
  | .sreset => Sys2Proof.Machine.execSreset s

end Sys2Proof.Machine
end

