-- ==== Sys2Proof/Machine/Execute.lean ====
section
/-! DEFINITION. Executing a command word: decode it and run its command, or record IllegalCommand (60_exceptions R236). -/

namespace Sys2Proof.Machine

/-- `Execute(w)` (60_exceptions R236): decode the word written to CMD, then run its command or fail with IllegalCommand. -/
def execWord (w : Word) (s : State) : Host.Outcome State Fault Refusal :=
  match decode w with
  | .ok i => exec i s
  | .error _ => .next (s.fail .illegalCommand)

end Sys2Proof.Machine
end

