-- ==== Sys2Proof/Machine/Step.lean ====
section
/-! DEFINITION. One step of the engine: the oldest pending host event takes effect (20_memory R58, R59; 60_exceptions R236, R252). -/

namespace Sys2Proof.Machine

/-- One step. With nothing pending the engine is idle and its state does not change (10_state R13; log entry 1). -/
def step (s : State) : Host.Outcome State Fault Refusal :=
  match nextEvent s with
  | none => .next s
  | some (e, s') =>
    match busEvent e s' with
    | .done t => .next t
    | .command w t => execWord w t

/-- `s` with the command word `w`, numbered as spec/opcode_table.json numbers bits, as the next host write to CMD, so that `step` runs exactly it.
Nothing else of the state changes: the engine fetches nothing (10_state R13; log entry 1). -/
def State.withFetchWord (s : State) (nbits w : Nat) : State :=
  s.issueCommand (BitVec.ofNat 32 (w % 2 ^ nbits))

end Sys2Proof.Machine
end

