-- ==== Sys2Proof/Safety.lean ====
section
/-! DEFINITION. The terms the claims are stated in: the invariant of the engine, the cipher as a function, and what a host's block-by-block run computes. -/

namespace Sys2Proof.Machine

/-- The legal values of the parameter BUF_BYTES (00_scope R6): a multiple of 8 from 24 to 65536. -/
abbrev legalBufBytes (n : Nat) : Prop := n % 8 = 0 ∧ 24 ≤ n ∧ n ≤ 65536

/-- What holds in every state a run reaches, whatever the host does. -/
structure State.Inv (s : State) : Prop where
  /-- BUF_BYTES is legal (00_scope R6). -/
  bufBytesLegal : legalBufBytes s.bufBytes
  /-- Both buffers are in canonical form. -/
  ibufWf : s.ibuf.wf
  obufWf : s.obuf.wf
  /-- No byte was ever stored at or beyond BUF_BYTES (20_memory R56, R62). -/
  ibufWithin : s.ibuf.within s.bufBytes
  obufWithin : s.obuf.within s.bufBytes
  /-- KSVALID says that KS is the schedule of the present KEY under some sixteen rotation amounts (10_state R17). -/
  ksvalidTrue : s.status.ksvalid = true →
    ∃ sh : List (BitVec 2), sh.length = 16 ∧ s.ks = keySchedule s.key sh
  /-- TRVALID says that the bank holds a trace, and a trace has at least one round (10_state R17, R27). -/
  trvalidLen : s.status.trvalid = true → 1 ≤ s.tr.len.toNat
  /-- A trace has at most 16 rounds (10_state R27). -/
  trLen : s.tr.len.toNat ≤ 16
  /-- TR.OUT is always equal to TR.FP (10_state R27). -/
  trOut : s.tr.out = s.tr.fp
  /-- Every valid record is the record of one round on its own L, R and K (10_state R28; 42_round_function R132). -/
  trRecords : ∀ i : Fin 16, i.val < s.tr.len.toNat →
    s.tr.recs[i] = roundRecord { l := s.tr.recs[i].l, r := s.tr.recs[i].r } s.tr.recs[i].k
  /-- Records at or beyond LEN hold zeros (10_state R28). -/
  trTail : ∀ i : Fin 16, s.tr.len.toNat ≤ i.val → s.tr.recs[i] = TrRecord.zero

/-- `E(x)` under `key`: `Core(x, KEY, ENC, STD).out` (44_mode_chain R160). -/
def blockEncrypt (key x : Block) : Block := (cipherCore x key .enc stdParams).out

/-- `D(x)` under `key`: `Core(x, KEY, DEC, STD).out` (44_mode_chain R160). -/
def blockDecrypt (key x : Block) : Block := (cipherCore x key .dec stdParams).out

/-- A host's block-by-block use of a chain: for each block in turn, DIN is loaded and the command `i` (MBLKE or MBLKD) is run.
The blocks found in DOUT, and the state at the end; none if a command did not complete with a next state. -/
def runChain (i : Instr) : List Block → State → Option (List Block × State)
  | [], s => some ([], s)
  | b :: rest, s =>
    match exec i (s.setDin b) with
    | .next t =>
      match runChain i rest t with
      | some (outs, u) => some (t.dout :: outs, u)
      | none => none
    | .fault _ => none
    | .refused _ => none

/-- The blocks of the padded payload of `n` bytes in IBUF (45_mode_message R180). -/
def paddedBlocks (s : State) (n : Nat) : List Block :=
  (List.range (padBlocks n)).map fun i => padBlock s n i

/-- The 8-byte blocks of IBUF from offset `o`, `k` of them (45_mode_message R184). -/
def bodyBlocks (s : State) (o k : Nat) : List Block :=
  (List.range k).map fun i => s.ibufRead (o + 8 * i) 8

/-- The increment of a counter held as bytes, the least significant first: add 1 to the first byte, carry where it wraps from 0xFF to 0x00, drop the last carry (44_mode_chain R171). -/
def incrementBytes : List Byte → List Byte
  | [] => []
  | b :: rest => if b = 0xFF#8 then 0x00#8 :: incrementBytes rest else (b + 1#8) :: rest

/-! ### The bus, as the host sees it -/

/-- A host read of the word at `offset` returns `w` and changes nothing but the bus's answer. -/
def readsAs (s : State) (offset : Nat) (w : Word) : Prop :=
  ∀ rest, step { s with pending := .read 32 offset :: rest } = .next { s with pending := rest, resp := .data w }

/-- A host write of `w` at `offset` is performed and turns the engine's state `s` into `t`. -/
def writeGives (s : State) (offset : Nat) (w : Word) (t : State) : Prop :=
  ∀ rest, step { s with pending := .write 32 offset w :: rest } = .next { t with pending := rest, resp := .ack }

/-- The engine refuses a host access: the bus's error response, and no state change whatever (20_memory R56). -/
def refusesAccess (s : State) (e : HostEvent) : Prop :=
  ∀ rest, step { s with pending := e :: rest } = .next { s with pending := rest, resp := .busError }

/-- The offsets below 0x220 that the map lists (10_state R31). -/
def listedControl : List Nat :=
  [0x00, 0x04, 0x08, 0x0C, 0x10, 0x14, 0x18, 0x20, 0x24, 0x28, 0x2C, 0x30, 0x34, 0x38, 0x3C, 0x40, 0x44,
   0x80, 0x88, 0x8C, 0x90, 0x94, 0x98, 0x9C, 0xA0, 0xA4, 0x200, 0x204]

/-- An offset that the register map lists, written as the map writes it (10_state R31). -/
def listedOffset (bufBytes offset : Nat) : Prop :=
  offset ∈ listedControl ∨
  (∃ r f, 1 ≤ r ∧ r ≤ 16 ∧ f ∈ [0x00, 0x04, 0x08, 0x0C, 0x10] ∧ offset = 0x200 + 0x20 * r + f) ∨
  (∃ i f, i < 16 ∧ f ∈ [0x00, 0x04, 0x08, 0x0C, 0x10, 0x14, 0x18, 0x1C, 0x20, 0x24, 0x28, 0x2C] ∧
    offset = 0x800 + 0x40 * i + f) ∨
  (∃ a, a < bufBytes ∧ a % 4 = 0 ∧ offset = 0x10000 + a) ∨
  (∃ a, a < bufBytes ∧ a % 4 = 0 ∧ offset = 0x20000 + a)

/-- An offset that the map marks W or R/W (10_state R31). -/
def writableOffset (bufBytes offset : Nat) : Prop :=
  offset ∈ [0x00, 0x0C, 0x10, 0x14, 0x20, 0x24, 0x28, 0x2C, 0x30, 0x34] ∨
  (∃ a, a < bufBytes ∧ a % 4 = 0 ∧ offset = 0x10000 + a)

/-- Every register and bank field has the value that the table of 10_state R36 gives after a reset. -/
structure State.RegistersAtReset (t : State) : Prop where
  err : t.status.err = .completed
  errs : t.status.errs = false
  padinv : t.status.padinv = false
  trvalid : t.status.trvalid = false
  ksvalid : t.status.ksvalid = false
  mode : t.status.mode = .ecb
  blkcnt : t.blkcnt = 0#32
  variant : variantWord t.variant = 0#32
  altshift : t.altshift = 0#32
  ilen : t.ilen = 0#32
  olen : t.olen = 0#32
  key : t.key = 0#64
  iv : t.iv = 0#64
  din : t.din = 0#64
  dout : t.dout = 0#64
  chain : t.chain = 0#64
  ksHalves : t.ks.c0 = 0#28 ∧ t.ks.d0 = 0#28
  ksRecords : ∀ i : Fin 16, t.ks.recs[i] = { shift := 0#2, c := 0#28, d := 0#28, k := 0#48 }
  ksRound : ∀ i : Fin 16, readReg t (.ksInfo i) = BitVec.ofNat 32 (256 * (i.val + 1))
  trHeader : t.tr.len = 0#5 ∧ t.tr.dir = .enc ∧ t.tr.inp = 0#64 ∧ t.tr.ip = 0#64 ∧ t.tr.fp = 0#64 ∧ t.tr.out = 0#64
  trRecords : ∀ i : Fin 16, t.tr.recs[i] =
    { l := 0#32, r := 0#32, k := 0#48, e := 0#48, x := 0#48, s := 0#32, p := 0#32, blk := 0#64 }

end Sys2Proof.Machine
end

