-- ==== Sys2Proof/Certificates/Slice0/Obligations.lean ====
section
/-! DEFINITION. The statements for the provers. Each docstring names the rules of spec/ that the statement formalises. -/

open Sys2Proof Sys2Proof.Machine

/-! ### Encoding -/

/-- The decoder gives back every well-formed command that was encoded (30_encoding R71, R72, R74, R76). -/
def Obligations.DecodeAfterEncodeIsIdentity : Prop :=
  ∀ i : Instr, i.WellFormed → decode (encode i) = .ok i

/-- A word that decodes has exactly one encoding, itself: no bit of a legal word is dropped (30_encoding R72, R74). -/
def Obligations.DecodedWordEncodesBack : Prop :=
  ∀ (w : Word) (i : Instr), decode w = .ok i → i.WellFormed ∧ encode i = w

/-- Decoding agrees with the opcode map: a row selects a word exactly when the word decodes to that row's command, every word that decodes is selected by its row, and no word is selected by two rows (30_encoding R72, R74). -/
def Obligations.DecodingFollowsOpcodeMap : Prop :=
  (∀ w, ∀ row ∈ opcodeTable, (row.Selects w ↔ ∃ i, decode w = .ok i ∧ i.mnemonic = row.mnemonic)) ∧
  (∀ w i, decode w = .ok i → ∃ row ∈ opcodeTable, row.mnemonic = i.mnemonic ∧ row.Selects w) ∧
  (∀ w, ∀ row₁ ∈ opcodeTable, ∀ row₂ ∈ opcodeTable, row₁.Selects w → row₂.Selects w → row₁ = row₂)

/-- The words that decode are exactly the 29 that 30_encoding R74 lists. -/
def Obligations.LegalWordsAreTwentyNine : Prop :=
  (∀ w, (∃ i, decode w = .ok i) ↔ w ∈ legalWords) ∧ legalWords.Nodup ∧ legalWords.length = 29

/-- The eleven worked encodings of 30_encoding R77. -/
def Obligations.WorkedEncodingsDecode : Prop :=
  decode 0x00000002#32 = .ok .encblk ∧
  decode 0x00000404#32 = .ok (.minit 4#3) ∧
  decode 0x00000907#32 = .ok (.msgenc 1#3 true) ∧
  decode 0x00000807#32 = .ok (.msgenc 0#3 true) ∧
  decode 0x00000208#32 = .ok (.msgdec 2#3) ∧
  decode 0x00000102#32 = .error .nonzeroReservedBits ∧
  decode 0x00000504#32 = .error (.reservedMode 5#3) ∧
  decode 0x00000C04#32 = .error .nonzeroReservedBits ∧
  decode 0x00001007#32 = .error .nonzeroReservedBits ∧
  decode 0x0000000C#32 = .error (.opcodeAbove0B 0x0C#8) ∧
  decode 0xFFFFFFFF#32 = .error (.opcodeAbove0B 0xFF#8)

/-! ### The step and the bus -/

/-- A host write to CMD runs the command its word decodes to, in the state in which the write has been taken and acknowledged, or fails with IllegalCommand; CMD stores nothing, and a read of it returns 0 (10_state R23).
That a step takes the oldest entry of `pending` and answers in `resp` is the model's choice (log entries 1 and 2). -/
def Obligations.CmdWriteRunsDecodedCommand : Prop :=
  ∀ (s : State) (w : Word) (rest : List HostEvent),
    (∀ i, decode w = .ok i →
      step { s with pending := .write 32 0x00 w :: rest } = exec i { s with pending := rest, resp := .ack }) ∧
    (∀ r, decode w = .error r →
      step { s with pending := .write 32 0x00 w :: rest } =
        .next { s with pending := rest, resp := .ack, status := { s.status with err := .illegalCommand, errs := true } }) ∧
    step { s with pending := .read 32 0x00 :: rest } = .next { s with pending := rest, resp := .data 0#32 }

/-- Writing a word with an opcode above 0x0B, a set must-be-zero bit, or MODE 5 to 7 to CMD records IllegalCommand and changes nothing else (60_exceptions R235; 30_encoding R75).
That a step takes the oldest entry of `pending` and answers in `resp` is the model's choice (log entries 1 and 2). -/
def Obligations.IllegalCommandRecordsOnlyTheError : Prop :=
  ∀ (s : State) (w : Word),
    (0x0B < (opcField w).toNat ∨
      ((opcField w).toNat ∈ [0x04, 0x08] ∧ (w.extractLsb' 11 21 ≠ 0#21 ∨ 4 < (modeField w).toNat)) ∨
      ((opcField w).toNat = 0x07 ∧ (w.extractLsb' 12 20 ≠ 0#20 ∨ 4 < (modeField w).toNat)) ∨
      ((opcField w).toNat ∉ [0x04, 0x07, 0x08] ∧ w.extractLsb' 8 24 ≠ 0#24)) →
    writeGives s 0x00 w { s with status := { s.status with err := .illegalCommand, errs := true } }

/-- With nothing from the host the engine does nothing (10_state R13).
That this is a step of the model, and a next state, is the model's choice (log entry 1). -/
def Obligations.IdleEngineKeepsItsState : Prop :=
  ∀ s : State, s.pending = [] → step s = .next s

/-- What the host reads at each offset below 0x200 that the map lists, and that the read changes nothing; TR.DIR is 0 for encrypt and 1 for decrypt (10_state R27, R31, R39).
That a step takes the oldest entry of `pending` and answers in `resp` is the model's choice (log entries 1 and 2). -/
def Obligations.ControlRegistersReadAsMapped : Prop :=
  ∀ s : State,
    readsAs s 0x00 0#32 ∧ readsAs s 0x04 (statusWord s.status) ∧ readsAs s 0x08 s.blkcnt ∧
    readsAs s 0x0C (variantWord s.variant) ∧ readsAs s 0x10 s.altshift ∧ readsAs s 0x14 s.ilen ∧ readsAs s 0x18 s.olen ∧
    readsAs s 0x20 (s.key.extractLsb' 32 32) ∧ readsAs s 0x24 (s.key.extractLsb' 0 32) ∧
    readsAs s 0x28 (s.iv.extractLsb' 32 32) ∧ readsAs s 0x2C (s.iv.extractLsb' 0 32) ∧
    readsAs s 0x30 (s.din.extractLsb' 32 32) ∧ readsAs s 0x34 (s.din.extractLsb' 0 32) ∧
    readsAs s 0x38 (s.dout.extractLsb' 32 32) ∧ readsAs s 0x3C (s.dout.extractLsb' 0 32) ∧
    readsAs s 0x40 (s.chain.extractLsb' 32 32) ∧ readsAs s 0x44 (s.chain.extractLsb' 0 32) ∧
    readsAs s 0x80 (s.tr.len.setWidth 32 ||| if s.tr.dir = .dec then 0x100#32 else 0#32) ∧
    readsAs s 0x88 (s.tr.inp.extractLsb' 32 32) ∧ readsAs s 0x8C (s.tr.inp.extractLsb' 0 32) ∧
    readsAs s 0x90 (s.tr.ip.extractLsb' 32 32) ∧ readsAs s 0x94 (s.tr.ip.extractLsb' 0 32) ∧
    readsAs s 0x98 (s.tr.fp.extractLsb' 32 32) ∧ readsAs s 0x9C (s.tr.fp.extractLsb' 0 32) ∧
    readsAs s 0xA0 (s.tr.out.extractLsb' 32 32) ∧ readsAs s 0xA4 (s.tr.out.extractLsb' 0 32)

/-- What the host reads in the banks: C0, D0, the key-schedule record of round r = i + 1 at 0x200 + 0x20·r with ROUND hardwired to r, and the trace record i at 0x800 + 0x40·i (10_state R24, R25, R28, R31).
That a step takes the oldest entry of `pending` and answers in `resp` is the model's choice (log entries 1 and 2). -/
def Obligations.BanksReadAsMapped : Prop :=
  ∀ s : State,
    readsAs s 0x200 (s.ks.c0.setWidth 32) ∧ readsAs s 0x204 (s.ks.d0.setWidth 32) ∧
    (∀ i : Fin 16,
      readsAs s (0x200 + 0x20 * (i.val + 1)) (BitVec.ofNat 32 (256 * (i.val + 1)) ||| s.ks.recs[i].shift.setWidth 32) ∧
      readsAs s (0x200 + 0x20 * (i.val + 1) + 0x04) (s.ks.recs[i].c.setWidth 32) ∧
      readsAs s (0x200 + 0x20 * (i.val + 1) + 0x08) (s.ks.recs[i].d.setWidth 32) ∧
      readsAs s (0x200 + 0x20 * (i.val + 1) + 0x0C) ((s.ks.recs[i].k.extractLsb' 32 16).setWidth 32) ∧
      readsAs s (0x200 + 0x20 * (i.val + 1) + 0x10) (s.ks.recs[i].k.extractLsb' 0 32)) ∧
    (∀ i : Fin 16,
      readsAs s (0x800 + 0x40 * i.val) s.tr.recs[i].l ∧
      readsAs s (0x800 + 0x40 * i.val + 0x04) s.tr.recs[i].r ∧
      readsAs s (0x800 + 0x40 * i.val + 0x08) ((s.tr.recs[i].k.extractLsb' 32 16).setWidth 32) ∧
      readsAs s (0x800 + 0x40 * i.val + 0x0C) (s.tr.recs[i].k.extractLsb' 0 32) ∧
      readsAs s (0x800 + 0x40 * i.val + 0x10) ((s.tr.recs[i].e.extractLsb' 32 16).setWidth 32) ∧
      readsAs s (0x800 + 0x40 * i.val + 0x14) (s.tr.recs[i].e.extractLsb' 0 32) ∧
      readsAs s (0x800 + 0x40 * i.val + 0x18) ((s.tr.recs[i].x.extractLsb' 32 16).setWidth 32) ∧
      readsAs s (0x800 + 0x40 * i.val + 0x1C) (s.tr.recs[i].x.extractLsb' 0 32) ∧
      readsAs s (0x800 + 0x40 * i.val + 0x20) s.tr.recs[i].s ∧
      readsAs s (0x800 + 0x40 * i.val + 0x24) s.tr.recs[i].p ∧
      readsAs s (0x800 + 0x40 * i.val + 0x28) (s.tr.recs[i].blk.extractLsb' 32 32) ∧
      readsAs s (0x800 + 0x40 * i.val + 0x2C) (s.tr.recs[i].blk.extractLsb' 0 32))

/-- The buffer windows: a read packs four bytes, the one at the lowest offset in bits 31:24; a write of IBUF puts the four bytes of the word at those offsets, leaves every other byte of both buffers, and reads back (20_memory R51 to R53).
The bytes below BUF_BYTES are the windows of a legal BUF_BYTES (00_scope R6), a multiple of 8.
That a step takes the oldest entry of `pending` and answers in `resp` is the model's choice (log entries 1 and 2). -/
def Obligations.BufferWindowsPackBigEndian : Prop :=
  ∀ (s : State) (k : Nat), legalBufBytes s.bufBytes → 4 * k + 3 < s.bufBytes →
    readsAs s (0x10000 + 4 * k)
      (s.ibufByte (4 * k) ++ s.ibufByte (4 * k + 1) ++ s.ibufByte (4 * k + 2) ++ s.ibufByte (4 * k + 3)) ∧
    readsAs s (0x20000 + 4 * k)
      (s.obufByte (4 * k) ++ s.obufByte (4 * k + 1) ++ s.obufByte (4 * k + 2) ++ s.obufByte (4 * k + 3)) ∧
    ∀ w : Word, ∃ t : State,
      writeGives s (0x10000 + 4 * k) w t ∧ t = { s with ibuf := t.ibuf } ∧
      t.ibufByte (4 * k) = w.extractLsb' 24 8 ∧ t.ibufByte (4 * k + 1) = w.extractLsb' 16 8 ∧
      t.ibufByte (4 * k + 2) = w.extractLsb' 8 8 ∧ t.ibufByte (4 * k + 3) = w.extractLsb' 0 8 ∧
      (∀ a, a < 4 * k ∨ 4 * k + 4 ≤ a → t.ibufByte a = s.ibufByte a) ∧
      (∀ a, t.obufByte a = s.obufByte a)

/-- The refused accesses are exactly those that are not an aligned 32-bit word, those at an offset the map does not list, and writes to read-only registers; each changes no state whatever, and every other access is performed (20_memory R54, R56).
That a step takes the oldest entry of `pending`, and that the bus's error response is an answer in `resp` and no refusal of the step, is the model's choice (log entries 1 and 2). -/
def Obligations.RefusedAccessesChangeNothing : Prop :=
  ∀ (s : State) (width offset : Nat) (w : Word), legalBufBytes s.bufBytes →
    (width = 32 ∧ listedOffset s.bufBytes offset → ∃ v, readsAs s offset v) ∧
    (¬ (width = 32 ∧ listedOffset s.bufBytes offset) → refusesAccess s (.read width offset)) ∧
    (width = 32 ∧ writableOffset s.bufBytes offset → ∃ t : State, writeGives s offset w t) ∧
    (¬ (width = 32 ∧ writableOffset s.bufBytes offset) → refusesAccess s (.write width offset w))

/-- What a host write to each read/write register does: it replaces that register's defined bits and nothing else, except that a write to either half of KEY also clears KSVALID (10_state R11, R19, R31, R39).
That a step takes the oldest entry of `pending` and answers in `resp` is the model's choice (log entries 1 and 2). -/
def Obligations.HostWritesReplaceOneRegister : Prop :=
  ∀ (s : State) (w : Word),
    writeGives s 0x0C w { s with variant := variantOfWord w } ∧
    writeGives s 0x10 w { s with altshift := w } ∧
    writeGives s 0x14 w { s with ilen := w } ∧
    writeGives s 0x20 w { s with key := w ++ s.key.extractLsb' 0 32, status := { s.status with ksvalid := false } } ∧
    writeGives s 0x24 w { s with key := s.key.extractLsb' 32 32 ++ w, status := { s.status with ksvalid := false } } ∧
    writeGives s 0x28 w { s with iv := w ++ s.iv.extractLsb' 0 32 } ∧
    writeGives s 0x2C w { s with iv := s.iv.extractLsb' 32 32 ++ w } ∧
    writeGives s 0x30 w { s with din := w ++ s.din.extractLsb' 0 32 } ∧
    writeGives s 0x34 w { s with din := s.din.extractLsb' 32 32 ++ w }

/-- Every field of VARIANT stands at the bits 10_state R19 gives it, in the word that a host write stores and in the word that a read returns; reserved bits ignore writes and read 0, and every other bit reads back as written, illegal values of NR and SWAPR included (R32).
The fields of STATUS stand where 10_state R17 puts them and its reserved bits read 0; ERR holds the code that 60_exceptions R230 gives the error, never 4, 6 or 7; MODE, there and in a command word, is the number that 30_encoding R73 gives the mode, and 5 to 7 name none. -/
def Obligations.StatusAndVariantWordsFollowTheLayout : Prop :=
  (∀ w : Word,
    (variantOfWord w).skipIp = w.getLsbD 0 ∧ (variantOfWord w).skipFp = w.getLsbD 1 ∧
    (variantOfWord w).skipSwap = w.getLsbD 2 ∧ (variantOfWord w).revKeys = w.getLsbD 3 ∧
    (variantOfWord w).altShift = w.getLsbD 4 ∧
    (variantOfWord w).nr = w.extractLsb' 8 5 ∧ (variantOfWord w).swapr = w.extractLsb' 16 5 ∧
    variantWord (variantOfWord w) = w &&& 0x001F1F1F#32) ∧
  (∀ v : Variant,
    (variantWord v).getLsbD 0 = v.skipIp ∧ (variantWord v).getLsbD 1 = v.skipFp ∧
    (variantWord v).getLsbD 2 = v.skipSwap ∧ (variantWord v).getLsbD 3 = v.revKeys ∧
    (variantWord v).getLsbD 4 = v.altShift ∧
    (variantWord v).extractLsb' 8 5 = v.nr ∧ (variantWord v).extractLsb' 16 5 = v.swapr ∧
    variantOfWord (variantWord v) = v ∧ variantWord v &&& 0xFFE0E0E0#32 = 0#32) ∧
  (∀ t : Status,
    (statusWord t).extractLsb' 0 3 = errNumber t.err ∧ (statusWord t).getLsbD 3 = t.errs ∧
    (statusWord t).getLsbD 4 = t.padinv ∧ (statusWord t).getLsbD 5 = t.trvalid ∧
    (statusWord t).getLsbD 6 = t.ksvalid ∧ (statusWord t).getLsbD 7 = false ∧
    (statusWord t).extractLsb' 8 3 = modeNumber t.mode ∧ (statusWord t).extractLsb' 11 21 = 0#21 ∧
    (modeNumber t.mode).toNat ≤ 4 ∧ errNumber t.err ∈ [0#3, 1#3, 2#3, 3#3, 5#3]) ∧
  (errNumber .completed = 0#3 ∧ errNumber .inputFormat = 1#3 ∧ errNumber .length = 2#3 ∧
    errNumber .missingIv = 3#3 ∧ errNumber .illegalCommand = 5#3) ∧
  (modeNumber .ecb = 0#3 ∧ modeNumber .cbc = 1#3 ∧ modeNumber .cfb = 2#3 ∧ modeNumber .ofb = 3#3 ∧
    modeNumber .ctr = 4#3) ∧
  (∀ (b : BitVec 3) (m : Mode), modeOfBits b = some m ↔ b = modeNumber m)

/-! ### Reset -/

/-- After a hard reset, and after SRESET, every piece of state has the value in the table of 10_state R36; the buffers are unspecified after a hard reset (a free byte at every offset, log entry 4) and unchanged by SRESET.
That a hard reset is a step on the oldest entry of `pending`, that it keeps the rest of `pending` and BUF_BYTES, and that SRESET keeps the model's own fields `bufBytes`, `pending`, `resp`, `draws` and `epoch`, is the model's choice (log entries 1, 5 and 15). -/
def Obligations.ResetLeavesTheTableOfValues : Prop :=
  (State.reset.RegistersAtReset ∧
    ∀ a, State.reset.ibufByte a = Config.ibufReset State.reset.epoch a ∧
      State.reset.obufByte a = Config.obufReset State.reset.epoch a) ∧
  (∀ (s : State) (rest : List HostEvent), ∃ t : State,
    step { s with pending := .hardReset :: rest } = .next t ∧ t.RegistersAtReset ∧
      t.pending = rest ∧ t.bufBytes = s.bufBytes ∧
      ∀ a, t.ibufByte a = Config.ibufReset t.epoch a ∧ t.obufByte a = Config.obufReset t.epoch a) ∧
  (∀ s : State, ∃ t : State, exec .sreset s = .next t ∧ t.RegistersAtReset ∧
    (∀ a, t.ibufByte a = s.ibufByte a ∧ t.obufByte a = s.obufByte a) ∧
    t.bufBytes = s.bufBytes ∧ t.pending = s.pending ∧ t.resp = s.resp ∧ t.draws = s.draws ∧ t.epoch = s.epoch)

/-! ### System commands -/

/-- NOP is the word 0, clears STATUS.ERR and changes nothing else, ERRS included; it completes in every state (47_system_commands R220). -/
def Obligations.NopClearsOnlyErr : Prop :=
  decode 0x00000000#32 = .ok .nop ∧
  ∀ s : State, exec .nop s = .next { s with status := { s.status with err := .completed } }

/-- CLRERR is the word 0x0000000A, clears ERR and ERRS and changes nothing else: not PADINV, TRVALID, KSVALID or MODE; it completes in every state, and no other command but SRESET clears a set ERRS (47_system_commands R223). -/
def Obligations.ClrerrClearsTheErrorRecord : Prop :=
  decode 0x0000000A#32 = .ok .clrerr ∧
  (∀ (i : Instr) (s t : State), i ≠ .clrerr → i ≠ .sreset → s.status.errs = true → exec i s = .next t →
    t.status.errs = true) ∧
  ∀ s : State, exec .clrerr s = .next { s with status := { s.status with err := .completed, errs := false } }

/-- IVGEN stores one draw in IV, whatever it is, and changes nothing else but STATUS.ERR (47_system_commands R221, R222).
That a draw is `Config.draw` at the model's counter `draws`, which advances, is the form the model chose for it (log entry 3). -/
def Obligations.IvgenStoresOneDraw : Prop :=
  ∀ s : State, exec .ivgen s =
    .next { s with iv := Config.draw s.draws, draws := s.draws + 1, status := { s.status with err := .completed } }

/-! ### Key schedule -/

/-- KEYEXP stores the schedule of KEY under the fixed shifts, sets KSVALID, clears ERR and changes nothing else; VARIANT and ALTSHIFT do not matter (41_key_schedule R122, R125). -/
def Obligations.KeyexpStoresStandardSchedule : Prop :=
  ∀ s : State, exec .keyexp s =
    .next { s with
      ks := keySchedule s.key standardShifts
      status := { s.status with err := .completed, ksvalid := true } }

/-- The key schedule, round by round: PC-1 gives C0 and D0; round r rotates the halves of round r - 1 by its own amount, records the amount, and PC-2 of the rotated halves is its subkey (41_key_schedule R121). -/
def Obligations.KeyScheduleRoundsAccumulate : Prop :=
  ∀ (key : Block) (sh : List (BitVec 2)), sh.length = 16 →
    let b := keySchedule key sh
    (b.c0 ++ b.d0 : BitVec 56) = perm 56 permutedChoice1 key ∧
    ∀ i : Fin 16,
      b.recs[i].shift = sh.getD i.val 0#2 ∧
      b.recs[i].k = perm 48 permutedChoice2 (b.recs[i].c ++ b.recs[i].d : BitVec 56) ∧
      (i.val = 0 → b.recs[i].c = rotl b.c0 (sh.getD 0 0#2).toNat ∧ b.recs[i].d = rotl b.d0 (sh.getD 0 0#2).toNat) ∧
      (∀ j : Fin 16, j.val + 1 = i.val →
        b.recs[i].c = rotl b.recs[j].c (sh.getD i.val 0#2).toNat ∧
        b.recs[i].d = rotl b.recs[j].d (sh.getD i.val 0#2).toNat)

/-- With the fixed shifts C16 = C0 and D16 = D0, and the schedule does not depend on the eight parity bits, the least significant bit of each byte of the key (41_key_schedule R124; 10_state R11). -/
def Obligations.ScheduleClosesAndIgnoresParity : Prop :=
  (∀ key : Block,
    (keySchedule key standardShifts).recs[15].c = (keySchedule key standardShifts).c0 ∧
    (keySchedule key standardShifts).recs[15].d = (keySchedule key standardShifts).d0) ∧
  (∀ (key₁ key₂ : Block) (sh : List (BitVec 2)),
    key₁ &&& 0xFEFEFEFEFEFEFEFE#64 = key₂ &&& 0xFEFEFEFEFEFEFEFE#64 → keySchedule key₁ sh = keySchedule key₂ sh)

/-! ### Tables and round -/

/-- A permutation takes position i of its result from position T[i], and a rotation takes position p from n places on (40_tables_primitives R90, R91); and the properties (a) to (g) of the tables that R111 lists. The tables are those the spec prints, which it takes from general knowledge (R112; log entry 7). -/
def Obligations.TablesHaveTheirListedProperties : Prop :=
  (∀ (N : Nat) (v : BitVec N) (T : List Nat), (∀ p ∈ T, 1 ≤ p ∧ p ≤ N) →
    ∀ i : Fin T.length, (perm T.length T v).getMsbD i.val = v.getMsbD (T[i] - 1)) ∧
  (∀ (N : Nat) (v : BitVec N) (n : Nat) (p : Fin N), (rotl v n).getMsbD p.val = v.getMsbD ((p.val + n) % N)) ∧
  ((∀ v : Block, perm 64 finalPermutation (perm 64 initialPermutation v) = v) ∧
    (∀ v : Block, perm 64 initialPermutation (perm 64 finalPermutation v) = v) ∧
    initialPermutation.Perm (List.range' 1 64) ∧ finalPermutation.Perm (List.range' 1 64)) ∧
  roundPermutation.Perm (List.range' 1 32) ∧
  ((∀ p ∈ List.range' 1 32, 1 ≤ expansion.count p) ∧
    (∀ p ∈ List.range' 1 32, expansion.count p = 2 ↔ p ∈ [1, 4, 5, 8, 9, 12, 13, 16, 17, 20, 21, 24, 25, 28, 29, 32])) ∧
  (permutedChoice1.Nodup ∧ permutedChoice1.length = 56 ∧
    ∀ p ∈ List.range' 1 64, p ∉ permutedChoice1 ↔ p ∈ [8, 16, 24, 32, 40, 48, 56, 64]) ∧
  (permutedChoice2.Nodup ∧ permutedChoice2.length = 48 ∧
    (∀ p ∈ List.range' 1 56, p ∉ permutedChoice2 ↔ p ∈ [9, 18, 22, 25, 35, 38, 43, 54]) ∧
    (∀ p ∈ permutedChoice2, 1 ≤ p ∧ p ≤ 56) ∧
    (∀ p ∈ permutedChoice2.take 24, p ≤ 28) ∧ (∀ p ∈ permutedChoice2.drop 24, 29 ≤ p)) ∧
  (∀ j ∈ List.range' 1 8, (sboxTable j).length = 4 ∧ ∀ row ∈ sboxTable j, row.Perm (List.range 16)) ∧
  (standardShifts.length = 16 ∧ (standardShifts.map BitVec.toNat).sum = 28)

/-- The hexadecimal notation, for the widths in use: one character per nibble, the most significant first, and conversion and its inverse undo each other in both directions (40_tables_primitives R100). -/
def Obligations.HexConversionRoundTrips : Prop :=
  ∀ N ∈ [64, 56, 48, 32],
    (∀ v : BitVec N, (hex v).length = N / 4 ∧
      (∀ k, k < N / 4 → (hex v)[k]? = some (hexChar (v.extractLsb' (N - 4 * (k + 1)) 4))) ∧ unhex N (hex v) = v) ∧
    (∀ cs : List Char, cs.length = N / 4 →
      (∀ c ∈ cs, c ∈ ['0', '1', '2', '3', '4', '5', '6', '7', '8', '9', 'a', 'b', 'c', 'd', 'e', 'f']) →
      hex (unhex N cs) = cs)

/-- The round is its own inverse up to a swap, whatever F is (42_round_function R134). -/
def Obligations.RoundUndoesItselfUpToSwap : Prop :=
  ∀ (h : Halves) (k : Subkey), roundHalves (roundHalves h k).swap k = h.swap

/-! ### Single-block cipher -/

/-- The trace of a core invocation, whatever the variant: header and records round by round, each record a round on its own halves, the first record's halves the IP stage's output, each later record's halves the block of the one before (exchanged after round SWAPR), the subkeys in the order of direction and REV_KEYS, zeros beyond LEN (43_block_cipher R141, R142, R145; 46_variant R201, R204, R206, R207).
What a round computes is said field by field: E expands R, X is E XOR K, each nibble of S is the entry of its own S-box at the row of the outer two bits and the column of the inner four bits of its 6-bit group of X, P permutes S, and the block is R followed by L XOR P (42_round_function R131, R132; 40_tables_primitives R109). -/
def Obligations.TraceRecordsFollowTheRounds : Prop :=
  ∀ (block key : Block) (dir : Dir) (vp : VariantParams), vp.nr ≤ 16 →
    let c := cipherCore block key dir vp
    let n := if vp.nr = 0 then 16 else vp.nr
    c.ks = keySchedule key (if vp.altShift then vp.altsh else standardShifts) ∧
    c.tr.len.toNat = n ∧ c.tr.dir = dir ∧ c.tr.inp = block ∧
    c.tr.ip = (if vp.skipIp then block else perm 64 initialPermutation block) ∧
    (c.tr.recs[0].l ++ c.tr.recs[0].r : Block) = c.tr.ip ∧
    (∀ i : Fin 16, i.val < n →
      c.tr.recs[i] = roundRecord { l := c.tr.recs[i].l, r := c.tr.recs[i].r } c.tr.recs[i].k ∧
      c.tr.recs[i].k = (if (dir = .enc ↔ vp.revKeys = false) then c.ks.recs[i].k else c.ks.recs[15 - i.val].k) ∧
      c.tr.recs[i].e = perm 48 expansion c.tr.recs[i].r ∧
      c.tr.recs[i].x = c.tr.recs[i].e ^^^ c.tr.recs[i].k ∧
      (∀ j : Fin 8,
        let table := [sbox1, sbox2, sbox3, sbox4, sbox5, sbox6, sbox7, sbox8].getD j.val []
        let group := c.tr.recs[i].x.extractLsb' (42 - 6 * j.val) 6
        let row := 2 * (group.getLsbD 5).toNat + (group.getLsbD 0).toNat
        let col := (group.extractLsb' 1 4).toNat
        (c.tr.recs[i].s.extractLsb' (28 - 4 * j.val) 4).toNat = (table.getD row []).getD col 0) ∧
      c.tr.recs[i].p = perm 32 roundPermutation c.tr.recs[i].s ∧
      c.tr.recs[i].blk = c.tr.recs[i].r ++ (c.tr.recs[i].l ^^^ c.tr.recs[i].p)) ∧
    (∀ i j : Fin 16, j.val = i.val + 1 → j.val < n →
      c.tr.recs[i].blk =
        if vp.swapr = j.val then c.tr.recs[j].r ++ c.tr.recs[j].l else c.tr.recs[j].l ++ c.tr.recs[j].r) ∧
    (∀ i : Fin 16, n ≤ i.val → c.tr.recs[i] = TrRecord.zero)

/-- The output of a core invocation from the block of its last round: the halves exchanged for FP unless SKIP_SWAP, exchanged once more if SWAPR is the last round, then FP or the identity; TR.OUT equals TR.FP (43_block_cipher R141, R146; 46_variant R202, R203, R207). -/
def Obligations.OutputComesFromTheLastRound : Prop :=
  ∀ (block key : Block) (dir : Dir) (vp : VariantParams), vp.nr ≤ 16 →
    let c := cipherCore block key dir vp
    let n := if vp.nr = 0 then 16 else vp.nr
    ∀ i : Fin 16, i.val + 1 = n →
      let last := c.tr.recs[i].blk
      let pre : Block :=
        if (vp.skipSwap = true) ↔ (vp.swapr = n) then last.extractLsb' 0 32 ++ last.extractLsb' 32 32 else last
      c.tr.out = c.tr.fp ∧ c.tr.fp = if vp.skipFp then pre else perm 64 finalPermutation pre

/-- Decryption undoes encryption and encryption undoes decryption, for every block and key; and under the weak key 0101010101010101 all sixteen subkeys are zero and the two directions are one function (43_block_cipher R147). -/
def Obligations.BlockCipherRoundTrips : Prop :=
  (∀ key block : Block,
    blockDecrypt key (blockEncrypt key block) = block ∧ blockEncrypt key (blockDecrypt key block) = block) ∧
  (∀ i : Fin 16, (keySchedule 0x0101010101010101#64 standardShifts).recs[i].k = 0#48) ∧
  (∀ block : Block,
    blockEncrypt 0x0101010101010101#64 block = blockDecrypt 0x0101010101010101#64 block ∧
    blockEncrypt 0x0101010101010101#64 (blockEncrypt 0x0101010101010101#64 block) = block)

/-- The round trip holds under REV_KEYS and under any alternate shift schedule, and with SKIP_IP and SKIP_FP both set or both clear, as long as no round is cut off and no half-swap is added or left out (46_variant R210). -/
def Obligations.RoundTripUnderKeyVariants : Prop :=
  ∀ (key block : Block) (vp : VariantParams),
    vp.skipIp = vp.skipFp → vp.skipSwap = false → vp.swapr = 0 → (vp.nr = 0 ∨ vp.nr = 16) →
    (cipherCore (cipherCore block key .enc vp).out key .dec vp).out = block ∧
    (cipherCore (cipherCore block key .dec vp).out key .enc vp).out = block

/-- ENCBLK with REV_KEYS computes exactly what DECBLK without it computes, and conversely, in everything but TR.DIR, under every setting of the other hooks (46_variant R204). -/
def Obligations.ReverseKeysExchangesDirections : Prop :=
  ∀ (block key : Block) (vp : VariantParams),
    let enc := cipherCore block key .enc { vp with revKeys := !vp.revKeys }
    let dec := cipherCore block key .dec vp
    enc.ks = dec.ks ∧ enc.tr = { dec.tr with dir := .enc }

/-- Identities of the hooks: NR = 16 is NR = 0; a SWAPR beyond the rounds executed has no effect; SWAPR on the last round gives the output of SKIP_SWAP, and both together cancel (46_variant R206, R207). -/
def Obligations.HookIdentitiesHold : Prop :=
  ∀ (block key : Block) (dir : Dir) (vp : VariantParams), vp.nr ≤ 16 →
    cipherCore block key dir { vp with nr := 16 } = cipherCore block key dir { vp with nr := 0 } ∧
    (∀ j, (if vp.nr = 0 then 16 else vp.nr) < j →
      cipherCore block key dir { vp with swapr := j } = cipherCore block key dir { vp with swapr := 0 }) ∧
    (cipherCore block key dir { vp with swapr := if vp.nr = 0 then 16 else vp.nr }).out =
      (cipherCore block key dir { vp with swapr := 0, skipSwap := !vp.skipSwap }).out

/-- Complementing every bit of key and block complements every bit of the output (95_test_vectors section 2.4; a consequence of 42_round_function R131 and 41_key_schedule R121). -/
def Obligations.ComplementOfKeyAndBlockComplements : Prop :=
  ∀ key block : Block, blockEncrypt (~~~key) (~~~block) = ~~~(blockEncrypt key block)

/-- ENCBLK and DECBLK with legal variant fields complete: one core invocation, forwards or backwards, on DIN under KEY, its schedule in KS, its output in DOUT, its trace in TR, and nothing else but three flags (43_block_cipher R142 to R144; 46_variant R200). -/
def Obligations.BlockCommandsStoreOutputScheduleAndTrace : Prop :=
  ∀ (s : State) (vp : VariantParams),
    s.variant.nr.toNat ≤ 16 → s.variant.swapr.toNat ≤ 16 →
    vp = { skipIp := s.variant.skipIp, skipFp := s.variant.skipFp, skipSwap := s.variant.skipSwap,
           revKeys := s.variant.revKeys, altShift := s.variant.altShift,
           nr := s.variant.nr.toNat, swapr := s.variant.swapr.toNat,
           altsh := (List.range 16).map fun i => s.altshift.extractLsb' (2 * i) 2 } →
    exec .encblk s = .next { s with
      dout := (cipherCore s.din s.key .enc vp).tr.out
      ks := (cipherCore s.din s.key .enc vp).ks
      tr := (cipherCore s.din s.key .enc vp).tr
      status := { s.status with err := .completed, ksvalid := true, trvalid := true } } ∧
    exec .decblk s = .next { s with
      dout := (cipherCore s.din s.key .dec vp).tr.out
      ks := (cipherCore s.din s.key .dec vp).ks
      tr := (cipherCore s.din s.key .dec vp).tr
      status := { s.status with err := .completed, ksvalid := true, trvalid := true } }

/-- NR or SWAPR above 16 makes ENCBLK and DECBLK fail with InputFormatError, and nothing but the error record changes (46_variant R200; 60_exceptions R231, R236). -/
def Obligations.VariantOutOfRangeFailsBlockCommands : Prop :=
  ∀ s : State, 16 < s.variant.nr.toNat ∨ 16 < s.variant.swapr.toNat →
    exec .encblk s = .next { s with status := { s.status with err := .inputFormat, errs := true } } ∧
    exec .decblk s = .next { s with status := { s.status with err := .inputFormat, errs := true } }

/-! ### Mode chain -/

/-- MINIT latches its mode, loads CHAIN from IV, zeroes BLKCNT, clears TRVALID and ERR, and changes nothing else (44_mode_chain R161). -/
def Obligations.MinitStartsAChain : Prop :=
  ∀ (s : State) (m : Mode), exec (.minit (modeNumber m)) s =
    .next { s with
      chain := s.iv
      blkcnt := 0#32
      status := { s.status with err := .completed, mode := m, trvalid := false } }

/-- MBLKE completes in every state, and its output block, chain value and traced core invocation are those of the latched mode's equations; VARIANT is not read (44_mode_chain R160, R162 to R164, R166 to R170).
The command is the word 0x00000005. -/
def Obligations.EncryptingChainStepFollowsTheMode : Prop :=
  decode 0x00000005#32 = .ok .mblke ∧
  ∀ s : State, ∃ t x : _, ∃ y : Block,
    exec .mblke s = .next t ∧ y = blockEncrypt s.key x ∧
    (match s.status.mode with
      | .ecb => x = s.din ∧ t.dout = y ∧ t.chain = s.chain
      | .cbc => x = s.din ^^^ s.chain ∧ t.dout = y ∧ t.chain = y
      | .cfb => x = s.chain ∧ t.dout = s.din ^^^ y ∧ t.chain = t.dout
      | .ofb => x = s.chain ∧ t.dout = s.din ^^^ y ∧ t.chain = y
      | .ctr => x = s.chain ∧ t.dout = s.din ^^^ y ∧ t.chain = s.chain + 1#64) ∧
    t = { s with
      dout := t.dout
      chain := t.chain
      blkcnt := s.blkcnt + 1#32
      ks := keySchedule s.key standardShifts
      tr := if s.blkcnt = 0#32 then (cipherCore x s.key .enc stdParams).tr else s.tr
      status := { s.status with err := .completed, ksvalid := true, trvalid := s.status.trvalid || s.blkcnt == 0#32 } }

/-- MBLKD completes in every state, and its output block, chain value and traced core invocation are those of the latched mode's inverse equations: the core runs backwards in ECB and CBC, forwards in CFB, OFB and CTR; VARIANT is not read (44_mode_chain R160, R162, R163, R165 to R170).
The command is the word 0x00000006. -/
def Obligations.DecryptingChainStepFollowsTheMode : Prop :=
  decode 0x00000006#32 = .ok .mblkd ∧
  ∀ s : State, ∃ t x d : _, ∃ y : Block,
    exec .mblkd s = .next t ∧ y = (cipherCore x s.key d stdParams).out ∧
    (match s.status.mode with
      | .ecb => d = .dec ∧ x = s.din ∧ t.dout = y ∧ t.chain = s.chain
      | .cbc => d = .dec ∧ x = s.din ∧ t.dout = y ^^^ s.chain ∧ t.chain = s.din
      | .cfb => d = .enc ∧ x = s.chain ∧ t.dout = s.din ^^^ y ∧ t.chain = s.din
      | .ofb => d = .enc ∧ x = s.chain ∧ t.dout = s.din ^^^ y ∧ t.chain = y
      | .ctr => d = .enc ∧ x = s.chain ∧ t.dout = s.din ^^^ y ∧ t.chain = s.chain + 1#64) ∧
    t = { s with
      dout := t.dout
      chain := t.chain
      blkcnt := s.blkcnt + 1#32
      ks := keySchedule s.key standardShifts
      tr := if s.blkcnt = 0#32 then (cipherCore x s.key d stdParams).tr else s.tr
      status := { s.status with err := .completed, ksvalid := true, trvalid := s.status.trvalid || s.blkcnt == 0#32 } }

/-- In OFB and CTR, MBLKE and MBLKD are the same operation (44_mode_chain R169, R170). -/
def Obligations.StreamModesHaveOneDirection : Prop :=
  ∀ s : State, s.status.mode = .ofb ∨ s.status.mode = .ctr → exec .mblke s = exec .mblkd s

/-- A CTR step, in either command, adds 1 modulo 2^64 to CHAIN, which is the big-endian increment of its 8 bytes with per-byte carry: the last byte first, the carry out of the first byte dropped (44_mode_chain R171). -/
def Obligations.CtrIncrementCarriesBytewise : Prop :=
  (∀ s : State, s.status.mode = .ctr → ∃ t u : State, exec .mblke s = .next t ∧ exec .mblkd s = .next u ∧
    t.chain = s.chain + 1#64 ∧ u.chain = s.chain + 1#64) ∧
  (∀ c : Block, bytes8 (c + 1#64) = (incrementBytes (bytes8 c).reverse).reverse)

/-- Per-block round trip: in every mode, under every key and IV, MINIT and MBLKD steps on the outputs of MINIT and MBLKE steps give the blocks back, and CHAIN ends at the same value, for every list of blocks and so after every block (44_mode_chain R172).
The two runs may start from different states with the same KEY and IV. -/
def Obligations.ChainRoundTripsInEveryMode : Prop :=
  ∀ (m : Mode) (blocks : List Block) (s s' : State), s'.key = s.key → s'.iv = s.iv →
    ∃ (s₀ s₀' u u' : State) (outs : List Block),
      exec (.minit (modeNumber m)) s = .next s₀ ∧ exec (.minit (modeNumber m)) s' = .next s₀' ∧
      runChain .mblke blocks s₀ = some (outs, u) ∧ outs.length = blocks.length ∧
      runChain .mblkd outs s₀' = some (blocks, u') ∧ u'.chain = u.chain

/-! ### Whole messages -/

/-- MSGENC with ILEN above BUF_BYTES - 16 fails with InputFormatError in every mode, ECB included, with no draw and nothing changed but the error record (45_mode_message R183, R193; 60_exceptions R231, R236). -/
def Obligations.MsgencTooLongFails : Prop :=
  ∀ (s : State) (m : Mode) (riv : Bool), s.bufBytes < s.ilen.toNat + 16 →
    exec (.msgenc (modeNumber m) riv) s =
      .next { s with status := { s.status with err := .inputFormat, errs := true } }

/-- MSGENC with a legal ILEN completes in every mode, and leaves the lengths, counts, flags and IV that 45_mode_message R183 and R185 give: OLEN = 8·nb in ECB and 8 + 8·nb otherwise with nb = floor(n/8) + 1, BLKCNT = nb, the IV used in IV and, outside ECB, in the first 8 bytes of OBUF.
With RIV set outside ECB that IV is a draw, whose value nothing specifies (47_system_commands R222); that it is `Config.draw` at the model's counter `draws` is the form the model chose for it (log entry 3). -/
def Obligations.MsgencCompletesWithLengthsAndIv : Prop :=
  ∀ (s : State) (m : Mode) (riv : Bool), s.ilen.toNat + 16 ≤ s.bufBytes →
    ∃ t : State, exec (.msgenc (modeNumber m) riv) s = .next t ∧
      t.olen = BitVec.ofNat 32 ((if m = .ecb then 0 else 8) + 8 * (s.ilen.toNat / 8 + 1)) ∧
      t.blkcnt = BitVec.ofNat 32 (s.ilen.toNat / 8 + 1) ∧
      t.status = { s.status with err := .completed, trvalid := true, ksvalid := true, mode := m } ∧
      t.iv = (if m ≠ .ecb ∧ riv = true then Config.draw s.draws else s.iv) ∧
      (m ≠ .ecb → t.obufRead 0 8 = t.iv) ∧
      t.ks = keySchedule s.key standardShifts ∧
      t.din = padBlock s s.ilen.toNat (s.ilen.toNat / 8)

/-- What MSGENC leaves unchanged when it gives a next state: every register it is not said to write, IBUF, and every byte of OBUF outside the message it stores at offset 0, whose length is the body's offset plus 8 bytes per block (45_mode_message R183, R188; 10_state R38).
The fields `bufBytes`, `pending`, `resp`, `draws` and `epoch` are the model's own, and that a command leaves them alone, but for a draw, is the model's choice (log entries 1 to 5). -/
def Obligations.MsgencFrame : Prop :=
  ∀ (s t : State) (mode : BitVec 3) (riv : Bool), exec (.msgenc mode riv) s = .next t →
    t.variant = s.variant ∧ t.altshift = s.altshift ∧ t.ilen = s.ilen ∧ t.key = s.key ∧
    t.status.padinv = s.status.padinv ∧
    t.bufBytes = s.bufBytes ∧ t.pending = s.pending ∧ t.resp = s.resp ∧ t.epoch = s.epoch ∧
    (∀ a, t.ibufByte a = s.ibufByte a) ∧
    (∀ m, modeOfBits mode = some m →
      (m = .ecb ∨ riv = false → t.iv = s.iv ∧ t.draws = s.draws) ∧
      ∀ a, bodyOffset m + 8 * padBlocks s.ilen.toNat ≤ a → t.obufByte a = s.obufByte a)

/-- MSGENC computes what a host computes with the block commands: MINIT, then MBLKE on each block of the padded payload; block i of the body in OBUF is the i-th DOUT, and the registers end the same (45_mode_message R180, R183, R187). -/
def Obligations.MsgencEqualsBlockCommands : Prop :=
  ∀ (s : State) (m : Mode), s.ilen.toNat + 16 ≤ s.bufBytes →
    ∃ (s₀ t u : State) (outs : List Block),
      exec (.minit (modeNumber m)) s = .next s₀ ∧
      runChain .mblke (paddedBlocks s s.ilen.toNat) s₀ = some (outs, u) ∧
      exec (.msgenc (modeNumber m) false) s = .next t ∧
      outs.length = padBlocks s.ilen.toNat ∧
      (∀ i, (h : i < outs.length) → t.obufRead (bodyOffset m + 8 * i) 8 = outs[i]) ∧
      t = { u with olen := t.olen, obuf := t.obuf }

/-- With RIV set in a non-ECB mode, MSGENC does what it does with RIV clear after the draw has been stored in IV; in ECB the RIV bit is ignored (45_mode_message R183; 30_encoding R75).
That the draw (47_system_commands R222) is `Config.draw` at the model's counter `draws`, which advances, is the form the model chose for it (log entry 3). -/
def Obligations.MsgencRandomIvIsADrawFirst : Prop :=
  ∀ (s : State) (m : Mode), s.ilen.toNat + 16 ≤ s.bufBytes →
    (m ≠ .ecb → exec (.msgenc (modeNumber m) true) s =
      exec (.msgenc (modeNumber m) false) { s with iv := Config.draw s.draws, draws := s.draws + 1 }) ∧
    exec (.msgenc (modeNumber .ecb) true) s = exec (.msgenc (modeNumber .ecb) false) s

/-- The errors of MSGDEC in the order of their checking: InputFormatError, MissingIvError, LengthError; each changes nothing but the error record, and a word with a reserved MODE is IllegalCommand whatever ILEN holds (60_exceptions R239; 45_mode_message R184, R192). -/
def Obligations.MsgdecErrorsInOrder : Prop :=
  (∀ (s : State) (m : Mode),
    (s.bufBytes < s.ilen.toNat → exec (.msgdec (modeNumber m)) s =
      .next { s with status := { s.status with err := .inputFormat, errs := true } }) ∧
    (s.ilen.toNat ≤ s.bufBytes → m ≠ .ecb → s.ilen.toNat < 16 → exec (.msgdec (modeNumber m)) s =
      .next { s with status := { s.status with err := .missingIv, errs := true } }) ∧
    (s.ilen.toNat ≤ s.bufBytes → (m = .ecb ∨ 16 ≤ s.ilen.toNat) →
      (s.ilen.toNat - (if m = .ecb then 0 else 8)) % 8 ≠ 0 → exec (.msgdec (modeNumber m)) s =
      .next { s with status := { s.status with err := .length, errs := true } })) ∧
  (∀ (s : State) (w : Word), (opcField w).toNat = 0x08 → 4 < (modeField w).toNat →
    execWord w s = .next { s with status := { s.status with err := .illegalCommand, errs := true } })

/-- MSGDEC with a legal input completes in every mode; IV, BLKCNT and the flags end as 45_mode_message R184 says, and OLEN and PADINV are Unpad's answer on the bytes it leaves in OBUF (R181).
An empty ECB input completes with OLEN 0, PADINV 1, BLKCNT 0 and TRVALID 0. -/
def Obligations.MsgdecCompletesWithLengthsAndIv : Prop :=
  ∀ (s : State) (m : Mode) (k : Nat),
    s.ilen.toNat = (if m = .ecb then 0 else 8) + 8 * k → (m ≠ .ecb → 1 ≤ k) → s.ilen.toNat ≤ s.bufBytes →
    ∃ t : State, exec (.msgdec (modeNumber m)) s = .next t ∧
      t.iv = (if m = .ecb then s.iv else s.ibufRead 0 8) ∧
      t.blkcnt = BitVec.ofNat 32 k ∧
      t.olen = BitVec.ofNat 32 (unpad t (8 * k)).1 ∧ t.status.padinv = (unpad t (8 * k)).2 ∧
      t.status.err = .completed ∧ t.status.errs = s.status.errs ∧ t.status.mode = m ∧
      t.status.trvalid = decide (k ≠ 0) ∧ t.status.ksvalid = (s.status.ksvalid || decide (k ≠ 0)) ∧
      (k = 0 → t.olen = 0#32 ∧ t.status.padinv = true ∧ t.dout = s.dout ∧ t.ks = s.ks ∧ t.tr = s.tr) ∧
      (k ≠ 0 → t.ks = keySchedule s.key standardShifts ∧
        t.din = s.ibufRead ((if m = .ecb then 0 else 8) + 8 * (k - 1)) 8)

/-- What MSGDEC leaves unchanged when it gives a next state: every register it is not said to write, IBUF, and every byte of OBUF at or beyond the body's length (45_mode_message R184, R188; 10_state R38).
The fields `bufBytes`, `pending`, `resp`, `draws` and `epoch` are the model's own, and that this command leaves them alone is the model's choice (log entries 1 to 5). -/
def Obligations.MsgdecFrame : Prop :=
  ∀ (s t : State) (mode : BitVec 3), exec (.msgdec mode) s = .next t →
    t.variant = s.variant ∧ t.altshift = s.altshift ∧ t.ilen = s.ilen ∧ t.key = s.key ∧
    t.bufBytes = s.bufBytes ∧ t.pending = s.pending ∧ t.resp = s.resp ∧ t.epoch = s.epoch ∧ t.draws = s.draws ∧
    (∀ a, t.ibufByte a = s.ibufByte a) ∧
    (∀ m, modeOfBits mode = some m →
      (m = .ecb → t.iv = s.iv) ∧
      ∀ a, s.ilen.toNat - bodyOffset m ≤ a → t.obufByte a = s.obufByte a)

/-- MSGDEC computes what a host computes with the block commands: IV from the head of the input outside ECB, MINIT, then MBLKD on each block of the body; block i in OBUF is the i-th DOUT (45_mode_message R184, R185, R187). -/
def Obligations.MsgdecEqualsBlockCommands : Prop :=
  ∀ (s : State) (m : Mode) (k : Nat),
    s.ilen.toNat = (if m = .ecb then 0 else 8) + 8 * k → (m ≠ .ecb → 1 ≤ k) → s.ilen.toNat ≤ s.bufBytes →
    ∃ (s₀ t u : State) (outs : List Block),
      exec (.minit (modeNumber m)) { s with iv := if m = .ecb then s.iv else s.ibufRead 0 8 } = .next s₀ ∧
      runChain .mblkd (bodyBlocks s (if m = .ecb then 0 else 8) k) s₀ = some (outs, u) ∧
      exec (.msgdec (modeNumber m)) s = .next t ∧
      outs.length = k ∧
      (∀ i, (h : i < outs.length) → t.obufRead (8 * i) 8 = outs[i]) ∧
      t = { u with olen := t.olen, obuf := t.obuf, status := { u.status with padinv := t.status.padinv } }

/-- After MSGENC or MSGDEC with at least one block, TR holds the Cipher Result of the first core invocation of the message (45_mode_message R189; 10_state R26). -/
def Obligations.MessageTraceIsTheFirstBlocks : Prop :=
  ∀ (s t : State) (m : Mode),
    (∀ riv, s.ilen.toNat + 16 ≤ s.bufBytes → exec (.msgenc (modeNumber m) riv) s = .next t →
      t.tr = (cipherCore (match m with
          | .ecb => padBlock s s.ilen.toNat 0
          | .cbc => padBlock s s.ilen.toNat 0 ^^^ t.iv
          | .cfb => t.iv
          | .ofb => t.iv
          | .ctr => t.iv) s.key .enc stdParams).tr) ∧
    (∀ k, s.ilen.toNat = (if m = .ecb then 0 else 8) + 8 * k → 1 ≤ k → s.ilen.toNat ≤ s.bufBytes →
      exec (.msgdec (modeNumber m)) s = .next t →
      t.tr = (match m with
          | .ecb => cipherCore (s.ibufRead 0 8) s.key .dec stdParams
          | .cbc => cipherCore (s.ibufRead 8 8) s.key .dec stdParams
          | .cfb => cipherCore t.iv s.key .enc stdParams
          | .ofb => cipherCore t.iv s.key .enc stdParams
          | .ctr => cipherCore t.iv s.key .enc stdParams).tr)

/-- Unpad takes N bytes off, and finds no invalid padding, exactly where the payload is not empty, its last byte is N from 1 to 8, the payload has N bytes, and all of its last N bytes equal N; otherwise, as with the tails 03 02, 00 and 09, it returns the whole payload and finds the padding invalid (45_mode_message R181, R182).
So it takes off exactly the padding that Pad put on (R180), it never takes off more than 8 bytes, nothing where it finds no valid padding, and looks at the last 8 bytes alone. -/
def Obligations.UnpadRemovesPaddingAlone : Prop :=
  (∀ (s : State) (m : Nat),
    let last := s.obufByte (m - 1)
    let valid := m ≠ 0 ∧ 1 ≤ last.toNat ∧ last.toNat ≤ 8 ∧ last.toNat ≤ m ∧
      ∀ j, 1 ≤ j → j ≤ last.toNat → s.obufByte (m - j) = last
    ((unpad s m).2 = false ↔ valid) ∧
    (valid → unpad s m = (m - last.toNat, false)) ∧ (¬ valid → unpad s m = (m, true))) ∧
  (∀ (s : State) (n : Nat), (∀ j, j < padLen n → s.obufByte (n + j) = BitVec.ofNat 8 (padLen n)) →
    unpad s (n + padLen n) = (n, false)) ∧
  (∀ (s : State) (m : Nat), (unpad s m).1 ≤ m ∧ m ≤ (unpad s m).1 + 8 ∧ ((unpad s m).2 = true → (unpad s m).1 = m)) ∧
  (∀ (s t : State) (m : Nat), (∀ j, 1 ≤ j → j ≤ 8 → j ≤ m → t.obufByte (m - j) = s.obufByte (m - j)) →
    unpad t m = unpad s m)

/-- Message round trip: in every mode, for every key, IV and payload that fits, if the OLEN bytes that MSGENC leaves in OBUF are put in IBUF of an engine with the same KEY and BUF_BYTES, with ILEN = OLEN, then MSGDEC gives the payload back, with OLEN the original length, PADINV 0 and no error (45_mode_message R186). -/
def Obligations.MessagesRoundTripInEveryMode : Prop :=
  ∀ (s t s' : State) (m : Mode) (riv : Bool), s.bufBytes ≤ 65536 → s.ilen.toNat + 16 ≤ s.bufBytes →
    exec (.msgenc (modeNumber m) riv) s = .next t →
    s'.key = s.key → s'.bufBytes = s.bufBytes → s'.ilen = t.olen →
    (∀ a, a < t.olen.toNat → s'.ibufByte a = t.obufByte a) →
    ∃ u : State, exec (.msgdec (modeNumber m)) s' = .next u ∧
      u.olen = s.ilen ∧ (∀ a, a < s.ilen.toNat → u.obufByte a = s.ibufByte a) ∧
      u.status.padinv = false ∧ u.status.err = .completed ∧ u.status.errs = s'.status.errs ∧ u.iv = (if m = .ecb then s'.iv else t.iv)

/-! ### The whole machine -/

/-- Every host access in every state has an outcome, and none is a trap, a hang or undefined: a step always answers a next state (60_exceptions R252, R253).
That a step with nothing pending is a next state (log entry 1), and that a refused access is one, where 20_memory R56 advises a refusal (log entry 2), is the model's choice; that no step of the model stops is deduced from R252 (log entry 8). -/
def Obligations.EveryStepAnswersANextState : Prop :=
  (∀ s : State, ∃ t, step s = .next t) ∧ (∀ (i : Instr) (s : State), ∃ t, exec i s = .next t)

/-- Every command ends in completion, with ERR 0 and ERRS unchanged but for CLRERR and SRESET, or in failure, with its code in ERR, ERRS 1, and nothing else changed; a word that does not decode is a failure with code 5 (60_exceptions R236). -/
def Obligations.CommandsCompleteOrChangeOnlyTheRecord : Prop :=
  (∀ (i : Instr) (s t : State), exec i s = .next t →
    (t.status.err = .completed ∧
      t.status.errs = if i = .clrerr ∨ i = .sreset then false else s.status.errs) ∨
    (∃ c, c ≠ ErrCode.completed ∧ t = { s with status := { s.status with err := c, errs := true } })) ∧
  (∀ (w : Word) (r : IllegalWord) (s : State), decode w = .error r →
    execWord w s = .next { s with status := { s.status with err := .illegalCommand, errs := true } })

/-- The invariant holds right after reset.
BUF_BYTES = 4096 there is the model's choice (log entry 5). -/
def Obligations.InvariantHoldsAtReset : Prop := State.reset.Inv

/-- Every step keeps the invariant: canonical buffers inside BUF_BYTES, KSVALID only with the schedule of the present KEY, and a trace bank whose header and records hang together (00_scope R6; 10_state R17, R27, R28; 20_memory R62). -/
def Obligations.EveryStepKeepsTheInvariant : Prop :=
  ∀ s t : State, s.Inv → step s = .next t → t.Inv

/-- ENCBLK, DECBLK, KEYEXP, NOP, IVGEN and CLRERR leave a chain intact: CHAIN, BLKCNT and STATUS.MODE are unchanged, and so are both buffers (44_mode_chain R174; 10_state R38). -/
def Obligations.ChainSurvivesOtherCommands : Prop :=
  ∀ (i : Instr) (s t : State), i ∈ [Instr.encblk, .decblk, .keyexp, .nop, .ivgen, .clrerr] → exec i s = .next t →
    t.chain = s.chain ∧ t.blkcnt = s.blkcnt ∧ t.status.mode = s.status.mode ∧ t.din = s.din ∧
    (∀ a, t.ibufByte a = s.ibufByte a ∧ t.obufByte a = s.obufByte a)

/-- No command but ENCBLK and DECBLK looks at VARIANT or ALTSHIFT, and no command but SRESET changes them: with other values there, every other command does the same to everything else (44_mode_chain R162; 46_variant R208; 10_state R38). -/
def Obligations.OnlyBlockCommandsReadVariant : Prop :=
  ∀ (i : Instr) (s t : State) (v : Variant) (a : Word),
    i ∉ [Instr.encblk, .decblk, .sreset] → exec i s = .next t →
    exec i { s with variant := v, altshift := a } = .next { t with variant := v, altshift := a }

/-- No command reads ERR, ERRS, PADINV, TRVALID or KSVALID, nor the banks KS and TR, nor DOUT or OLEN: with other values there, a command computes the same CHAIN, BLKCNT, MODE, IV, DIN and OBUF, and any of KS, TR, DOUT and OLEN that it writes (10_state R17, R38; 41_key_schedule R123). -/
def Obligations.CommandsIgnoreFlagsBanksAndOutputs : Prop :=
  ∀ (i : Instr) (s s' t : State),
    s' = { s with ks := s'.ks, tr := s'.tr, dout := s'.dout, olen := s'.olen,
                  status := { s'.status with mode := s.status.mode } } →
    exec i s = .next t →
    ∃ t' : State, exec i s' = .next t' ∧
      t' = { t with ks := t'.ks, tr := t'.tr, dout := t'.dout, olen := t'.olen,
                    status := { t'.status with err := t.status.err, mode := t.status.mode } } ∧
      (t'.ks = t.ks ∨ (t.ks = s.ks ∧ t'.ks = s'.ks)) ∧
      (t'.tr = t.tr ∨ (t.tr = s.tr ∧ t'.tr = s'.tr)) ∧
      (t'.dout = t.dout ∨ (t.dout = s.dout ∧ t'.dout = s'.dout)) ∧
      (t'.olen = t.olen ∨ (t.olen = s.olen ∧ t'.olen = s'.olen))

/-- A draw is made by IVGEN, and by MSGENC with RIV set in a non-ECB mode whose length check passes, and by no other command; it is one draw, stored in IV (47_system_commands R222, R225).
That a draw is `Config.draw` at the model's counter `draws`, which advances, is the form the model chose for it (log entry 3). -/
def Obligations.DrawsAreMadeOnlyForAnIv : Prop :=
  ∀ (i : Instr) (s t : State), exec i s = .next t →
    (((i = .ivgen ∨ ∃ m, m ≠ Mode.ecb ∧ i = .msgenc (modeNumber m) true ∧ s.ilen.toNat + 16 ≤ s.bufBytes) →
      t.draws = s.draws + 1 ∧ t.iv = Config.draw s.draws) ∧
    (¬ (i = .ivgen ∨ ∃ m, m ≠ Mode.ecb ∧ i = .msgenc (modeNumber m) true ∧ s.ilen.toNat + 16 ≤ s.bufBytes) →
      t.draws = s.draws))

/-- No command changes KEY, ILEN, VARIANT or ALTSHIFT but SRESET; none, SRESET included, changes IBUF (10_state R36, R38).
That no command, SRESET included, changes the model's own fields `bufBytes`, `pending`, `resp` and `epoch` (BUF_BYTES, what is pending, the bus's answer, the number of hard resets) is the model's choice (log entries 5 and 15). -/
def Obligations.CommandsLeaveHostInputsAlone : Prop :=
  ∀ (i : Instr) (s t : State), exec i s = .next t →
    (i ≠ .sreset → t.key = s.key ∧ t.ilen = s.ilen ∧ t.variant = s.variant ∧ t.altshift = s.altshift) ∧
    t.ibuf = s.ibuf ∧ t.bufBytes = s.bufBytes ∧ t.pending = s.pending ∧ t.resp = s.resp ∧ t.epoch = s.epoch
end

