-- ==== Sys2Proof/Laws/Memory.lean ====
section
/-! SUPPORT. What reading and writing a buffer do: read after write, everything else unchanged, and the canonical form kept. -/

namespace Sys2Proof.Machine

@[simp] theorem Memory.read_nil (a : Nat) : Memory.read [] a = none := rfl

theorem Memory.read_write_same (m : Memory) (a : Nat) (b : Byte) : (m.write a b).read a = some b := by
  induction m with
  | nil => simp [Memory.write, Memory.read]
  | cons c rest ih =>
    obtain ⟨x, y⟩ := c
    unfold Memory.write
    split
    · simp [Memory.read]
    · split
      · simp [Memory.read]
      · simp [Memory.read, *]

theorem Memory.read_write_other (m : Memory) {a a' : Nat} (b : Byte) (h : a' ≠ a) :
    (m.write a b).read a' = m.read a' := by
  induction m with
  | nil => simp [Memory.write, Memory.read, h]
  | cons c rest ih =>
    obtain ⟨x, y⟩ := c
    unfold Memory.write
    split
    · simp [Memory.read, h]
    · split
      · rename_i hx
        subst hx
        simp [Memory.read, h]
      · simp [Memory.read, ih]

/-- What is listed after a write was listed before, or is the byte written. -/
theorem Memory.mem_write {m : Memory} {a : Nat} {b : Byte} {c : Host.Cell} (h : c ∈ m.write a b) :
    c = (a, b) ∨ c ∈ m := by
  induction m with
  | nil => simpa [Memory.write] using h
  | cons d rest ih =>
    obtain ⟨x, y⟩ := d
    unfold Memory.write at h
    split at h
    · simpa using h
    · split at h
      · simp only [List.mem_cons] at h ⊢
        tauto
      · simp only [List.mem_cons] at h ⊢
        rcases h with h | h
        · exact .inr (.inl h)
        · exact (ih h).imp id .inr

theorem Memory.write_wf {m : Memory} (h : m.wf) (a : Nat) (b : Byte) : (m.write a b).wf := by
  induction m with
  | nil => simp [Memory.wf, Memory.write]
  | cons c rest ih =>
    obtain ⟨x, y⟩ := c
    have hhead := (List.pairwise_cons.mp h).1
    have htail := (List.pairwise_cons.mp h).2
    unfold Memory.write
    split
    · rename_i hax
      refine List.pairwise_cons.mpr ⟨fun d hd => ?_, h⟩
      rcases List.mem_cons.mp hd with rfl | hd
      · exact hax
      · exact Nat.lt_trans hax (hhead d hd)
    · split
      · rename_i hax
        subst hax
        exact List.pairwise_cons.mpr ⟨hhead, htail⟩
      · rename_i h1 h2
        refine List.pairwise_cons.mpr ⟨fun d hd => ?_, ih htail⟩
        rcases Memory.mem_write hd with rfl | hd
        · show x < a
          omega
        · exact hhead d hd

theorem Memory.write_within {m : Memory} {bound a : Nat} (h : m.within bound) (ha : a < bound) (b : Byte) :
    (m.write a b).within bound := by
  intro c hc
  rcases Memory.mem_write hc with rfl | hc
  · exact ha
  · exact h c hc

theorem Memory.writeBytes_wf {m : Memory} (h : m.wf) (a n : Nat) (v : BitVec (8 * n)) :
    (m.writeBytes a n v).wf := by
  induction n with
  | zero => exact h
  | succ n ih => exact Memory.write_wf (ih _) _ _

theorem Memory.writeBytes_within {m : Memory} {bound a n : Nat} (h : m.within bound) (ha : a + n ≤ bound)
    (v : BitVec (8 * n)) : (m.writeBytes a n v).within bound := by
  induction n with
  | zero => exact h
  | succ n ih => exact Memory.write_within (ih (by omega) _) (by omega) _

/-- A byte outside the written range reads as before. -/
theorem Memory.read_writeBytes_other (m : Memory) {a n a' : Nat} (v : BitVec (8 * n)) (h : a' < a ∨ a + n ≤ a') :
    (m.writeBytes a n v).read a' = m.read a' := by
  induction n with
  | zero => rfl
  | succ n ih =>
    unfold Memory.writeBytes
    rw [Memory.read_write_other _ _ (by omega), ih _ (by omega)]

/-- The byte at place `j` of the written range is the byte of the value at that place, the most significant first. -/
theorem Memory.read_writeBytes (m : Memory) {a n j : Nat} (v : BitVec (8 * n)) (h : j < n) :
    (m.writeBytes a n v).read (a + j) = some (v.extractLsb' (8 * (n - 1 - j)) 8) := by
  induction n with
  | zero => omega
  | succ n ih =>
    unfold Memory.writeBytes
    by_cases hj : j = n
    · subst hj
      rw [Memory.read_write_same]
      simp
    · rw [Memory.read_write_other _ _ (by omega), ih _ (by omega)]
      congr 1
      ext k hk
      simp only [BitVec.getElem_extractLsb', BitVec.getLsbD_extractLsb']
      have : 8 * (n - 1 - j) + k < 8 * n := by omega
      simp only [this, decide_true, Bool.true_and]
      congr 1
      omega

/-- Reading bytes that two byte functions agree on gives one value. -/
theorem bytesValue_congr {f g : Nat → Byte} {a n : Nat} (h : ∀ j, j < n → f (a + j) = g (a + j)) :
    bytesValue f a n = bytesValue g a n := by
  induction n with
  | zero => rfl
  | succ n ih =>
    unfold bytesValue
    rw [ih fun j hj => h j (by omega), h n (by omega)]

/-- A value whose bytes are those of `v`, the most significant first, is `v`. -/
theorem bytesValue_of_bytes {f : Nat → Byte} {a n : Nat} (v : BitVec (8 * n))
    (h : ∀ j, j < n → f (a + j) = v.extractLsb' (8 * (n - 1 - j)) 8) : bytesValue f a n = v := by
  induction n with
  | zero => exact (BitVec.eq_nil _).trans (BitVec.eq_nil v).symm
  | succ n ih =>
    unfold bytesValue
    have hn : f (a + n) = v.extractLsb' 0 8 := by
      have := h n (by omega)
      simpa using this
    have hrest : bytesValue f a n = v.extractLsb' 8 (8 * n) := by
      refine ih _ fun j hj => ?_
      rw [h j (by omega)]
      ext k hk
      simp only [BitVec.getElem_extractLsb', BitVec.getLsbD_extractLsb']
      have : 8 * (n - 1 - j) + k < 8 * n := by omega
      simp only [this, decide_true, Bool.true_and]
      congr 1
      omega
    rw [hrest, hn]
    ext k hk
    simp only [BitVec.getElem_append, BitVec.getElem_extractLsb']
    split
    · simp [← BitVec.getLsbD_eq_getElem]
    · rename_i h8
      rw [← BitVec.getLsbD_eq_getElem]
      congr 1
      omega

/-- Byte `j` of the value of `n` bytes is the byte read there. -/
theorem bytesValue_byte (f : Nat → Byte) (a n j : Nat) (h : j < n) :
    (bytesValue f a n).extractLsb' (8 * (n - 1 - j)) 8 = f (a + j) := by
  induction n with
  | zero => omega
  | succ n ih =>
    unfold bytesValue
    ext k hk
    simp only [BitVec.getElem_extractLsb', BitVec.getLsbD_append]
    by_cases hj : j = n
    · subst hj
      simp [hk, BitVec.getLsbD_eq_getElem]
    · rw [← ih (by omega)]
      have h1 : ¬ 8 * (n + 1 - 1 - j) + k < 8 := by omega
      simp only [h1, ↓reduceIte, BitVec.getElem_extractLsb']
      congr 1
      omega

/-! ### The buffers of a state -/

theorem State.obufByte_obufWrite_other (s : State) {a a' : Nat} (v : Block) (h : a' < a ∨ a + 8 ≤ a') :
    (s.obufWrite a v).obufByte a' = s.obufByte a' := by
  unfold State.obufByte State.obufWrite
  rw [Memory.read_writeBytes_other _ _ h]

theorem State.obufByte_obufWrite (s : State) {a j : Nat} (v : Block) (h : j < 8) :
    (s.obufWrite a v).obufByte (a + j) = v.extractLsb' (8 * (7 - j)) 8 := by
  unfold State.obufByte State.obufWrite
  rw [Memory.read_writeBytes _ _ h]
  rfl

/-- Reading back a block that was written. -/
theorem State.obufRead_obufWrite (s : State) (a : Nat) (v : Block) : (s.obufWrite a v).obufRead a 8 = v :=
  bytesValue_of_bytes (n := 8) v fun _ hj => State.obufByte_obufWrite s v hj

theorem State.obufRead_obufWrite_other (s : State) {a a' n : Nat} (v : Block) (h : a' + n ≤ a ∨ a + 8 ≤ a') :
    (s.obufWrite a v).obufRead a' n = s.obufRead a' n :=
  bytesValue_congr fun _ _ => State.obufByte_obufWrite_other s v (by omega)

@[simp] theorem State.ibufByte_obufWrite (s : State) (a a' : Nat) (v : Block) :
    (s.obufWrite a v).ibufByte a' = s.ibufByte a' := rfl

theorem State.ibufByte_ibufWrite_other (s : State) {a a' : Nat} (w : Word) (h : a' < a ∨ a + 4 ≤ a') :
    (s.ibufWrite a w).ibufByte a' = s.ibufByte a' := by
  unfold State.ibufByte State.ibufWrite
  rw [Memory.read_writeBytes_other _ _ h]

theorem State.ibufByte_ibufWrite (s : State) {a j : Nat} (w : Word) (h : j < 4) :
    (s.ibufWrite a w).ibufByte (a + j) = w.extractLsb' (8 * (3 - j)) 8 := by
  unfold State.ibufByte State.ibufWrite
  rw [Memory.read_writeBytes _ _ h]
  rfl

theorem State.ibufRead_ibufWrite (s : State) (a : Nat) (w : Word) : (s.ibufWrite a w).ibufRead a 4 = w :=
  bytesValue_of_bytes (n := 4) w fun _ hj => State.ibufByte_ibufWrite s w hj

@[simp] theorem State.obufByte_ibufWrite (s : State) (a a' : Nat) (w : Word) :
    (s.ibufWrite a w).obufByte a' = s.obufByte a' := rfl

end Sys2Proof.Machine
end

