-- ==== Sys2Proof/Laws/State.lean ====
section
/-! SUPPORT. One lemma per field per named update of the state, each true by rfl, so that no proof unfolds a record update. -/

namespace Sys2Proof.Machine

/-! ### complete -/

@[simp] theorem State.complete_status_err (s : State) : (s.complete).status.err = .completed := rfl
@[simp] theorem State.complete_status_errs (s : State) : (s.complete).status.errs = s.status.errs := rfl
@[simp] theorem State.complete_status_padinv (s : State) : (s.complete).status.padinv = s.status.padinv := rfl
@[simp] theorem State.complete_status_trvalid (s : State) : (s.complete).status.trvalid = s.status.trvalid := rfl
@[simp] theorem State.complete_status_ksvalid (s : State) : (s.complete).status.ksvalid = s.status.ksvalid := rfl
@[simp] theorem State.complete_status_mode (s : State) : (s.complete).status.mode = s.status.mode := rfl
@[simp] theorem State.complete_blkcnt (s : State) : (s.complete).blkcnt = s.blkcnt := rfl
@[simp] theorem State.complete_variant (s : State) : (s.complete).variant = s.variant := rfl
@[simp] theorem State.complete_altshift (s : State) : (s.complete).altshift = s.altshift := rfl
@[simp] theorem State.complete_ilen (s : State) : (s.complete).ilen = s.ilen := rfl
@[simp] theorem State.complete_olen (s : State) : (s.complete).olen = s.olen := rfl
@[simp] theorem State.complete_key (s : State) : (s.complete).key = s.key := rfl
@[simp] theorem State.complete_iv (s : State) : (s.complete).iv = s.iv := rfl
@[simp] theorem State.complete_din (s : State) : (s.complete).din = s.din := rfl
@[simp] theorem State.complete_dout (s : State) : (s.complete).dout = s.dout := rfl
@[simp] theorem State.complete_chain (s : State) : (s.complete).chain = s.chain := rfl
@[simp] theorem State.complete_ks (s : State) : (s.complete).ks = s.ks := rfl
@[simp] theorem State.complete_tr (s : State) : (s.complete).tr = s.tr := rfl
@[simp] theorem State.complete_ibuf (s : State) : (s.complete).ibuf = s.ibuf := rfl
@[simp] theorem State.complete_obuf (s : State) : (s.complete).obuf = s.obuf := rfl
@[simp] theorem State.complete_bufBytes (s : State) : (s.complete).bufBytes = s.bufBytes := rfl
@[simp] theorem State.complete_pending (s : State) : (s.complete).pending = s.pending := rfl
@[simp] theorem State.complete_resp (s : State) : (s.complete).resp = s.resp := rfl
@[simp] theorem State.complete_draws (s : State) : (s.complete).draws = s.draws := rfl
@[simp] theorem State.complete_epoch (s : State) : (s.complete).epoch = s.epoch := rfl

/-! ### fail -/

@[simp] theorem State.fail_status_err (s : State) (c : ErrCode) : (s.fail c).status.err = c := rfl
@[simp] theorem State.fail_status_errs (s : State) (c : ErrCode) : (s.fail c).status.errs = true := rfl
@[simp] theorem State.fail_status_padinv (s : State) (c : ErrCode) : (s.fail c).status.padinv = s.status.padinv := rfl
@[simp] theorem State.fail_status_trvalid (s : State) (c : ErrCode) : (s.fail c).status.trvalid = s.status.trvalid := rfl
@[simp] theorem State.fail_status_ksvalid (s : State) (c : ErrCode) : (s.fail c).status.ksvalid = s.status.ksvalid := rfl
@[simp] theorem State.fail_status_mode (s : State) (c : ErrCode) : (s.fail c).status.mode = s.status.mode := rfl
@[simp] theorem State.fail_blkcnt (s : State) (c : ErrCode) : (s.fail c).blkcnt = s.blkcnt := rfl
@[simp] theorem State.fail_variant (s : State) (c : ErrCode) : (s.fail c).variant = s.variant := rfl
@[simp] theorem State.fail_altshift (s : State) (c : ErrCode) : (s.fail c).altshift = s.altshift := rfl
@[simp] theorem State.fail_ilen (s : State) (c : ErrCode) : (s.fail c).ilen = s.ilen := rfl
@[simp] theorem State.fail_olen (s : State) (c : ErrCode) : (s.fail c).olen = s.olen := rfl
@[simp] theorem State.fail_key (s : State) (c : ErrCode) : (s.fail c).key = s.key := rfl
@[simp] theorem State.fail_iv (s : State) (c : ErrCode) : (s.fail c).iv = s.iv := rfl
@[simp] theorem State.fail_din (s : State) (c : ErrCode) : (s.fail c).din = s.din := rfl
@[simp] theorem State.fail_dout (s : State) (c : ErrCode) : (s.fail c).dout = s.dout := rfl
@[simp] theorem State.fail_chain (s : State) (c : ErrCode) : (s.fail c).chain = s.chain := rfl
@[simp] theorem State.fail_ks (s : State) (c : ErrCode) : (s.fail c).ks = s.ks := rfl
@[simp] theorem State.fail_tr (s : State) (c : ErrCode) : (s.fail c).tr = s.tr := rfl
@[simp] theorem State.fail_ibuf (s : State) (c : ErrCode) : (s.fail c).ibuf = s.ibuf := rfl
@[simp] theorem State.fail_obuf (s : State) (c : ErrCode) : (s.fail c).obuf = s.obuf := rfl
@[simp] theorem State.fail_bufBytes (s : State) (c : ErrCode) : (s.fail c).bufBytes = s.bufBytes := rfl
@[simp] theorem State.fail_pending (s : State) (c : ErrCode) : (s.fail c).pending = s.pending := rfl
@[simp] theorem State.fail_resp (s : State) (c : ErrCode) : (s.fail c).resp = s.resp := rfl
@[simp] theorem State.fail_draws (s : State) (c : ErrCode) : (s.fail c).draws = s.draws := rfl
@[simp] theorem State.fail_epoch (s : State) (c : ErrCode) : (s.fail c).epoch = s.epoch := rfl

/-! ### obufWrite -/

@[simp] theorem State.obufWrite_status (s : State) (a : Nat) (v : Block) : (s.obufWrite a v).status = s.status := rfl
@[simp] theorem State.obufWrite_blkcnt (s : State) (a : Nat) (v : Block) : (s.obufWrite a v).blkcnt = s.blkcnt := rfl
@[simp] theorem State.obufWrite_variant (s : State) (a : Nat) (v : Block) : (s.obufWrite a v).variant = s.variant := rfl
@[simp] theorem State.obufWrite_altshift (s : State) (a : Nat) (v : Block) : (s.obufWrite a v).altshift = s.altshift := rfl
@[simp] theorem State.obufWrite_ilen (s : State) (a : Nat) (v : Block) : (s.obufWrite a v).ilen = s.ilen := rfl
@[simp] theorem State.obufWrite_olen (s : State) (a : Nat) (v : Block) : (s.obufWrite a v).olen = s.olen := rfl
@[simp] theorem State.obufWrite_key (s : State) (a : Nat) (v : Block) : (s.obufWrite a v).key = s.key := rfl
@[simp] theorem State.obufWrite_iv (s : State) (a : Nat) (v : Block) : (s.obufWrite a v).iv = s.iv := rfl
@[simp] theorem State.obufWrite_din (s : State) (a : Nat) (v : Block) : (s.obufWrite a v).din = s.din := rfl
@[simp] theorem State.obufWrite_dout (s : State) (a : Nat) (v : Block) : (s.obufWrite a v).dout = s.dout := rfl
@[simp] theorem State.obufWrite_chain (s : State) (a : Nat) (v : Block) : (s.obufWrite a v).chain = s.chain := rfl
@[simp] theorem State.obufWrite_ks (s : State) (a : Nat) (v : Block) : (s.obufWrite a v).ks = s.ks := rfl
@[simp] theorem State.obufWrite_tr (s : State) (a : Nat) (v : Block) : (s.obufWrite a v).tr = s.tr := rfl
@[simp] theorem State.obufWrite_ibuf (s : State) (a : Nat) (v : Block) : (s.obufWrite a v).ibuf = s.ibuf := rfl
@[simp] theorem State.obufWrite_obuf (s : State) (a : Nat) (v : Block) : (s.obufWrite a v).obuf = s.obuf.writeBytes a 8 v := rfl
@[simp] theorem State.obufWrite_bufBytes (s : State) (a : Nat) (v : Block) : (s.obufWrite a v).bufBytes = s.bufBytes := rfl
@[simp] theorem State.obufWrite_pending (s : State) (a : Nat) (v : Block) : (s.obufWrite a v).pending = s.pending := rfl
@[simp] theorem State.obufWrite_resp (s : State) (a : Nat) (v : Block) : (s.obufWrite a v).resp = s.resp := rfl
@[simp] theorem State.obufWrite_draws (s : State) (a : Nat) (v : Block) : (s.obufWrite a v).draws = s.draws := rfl
@[simp] theorem State.obufWrite_epoch (s : State) (a : Nat) (v : Block) : (s.obufWrite a v).epoch = s.epoch := rfl

/-! ### ibufWrite -/

@[simp] theorem State.ibufWrite_status (s : State) (a : Nat) (w : Word) : (s.ibufWrite a w).status = s.status := rfl
@[simp] theorem State.ibufWrite_blkcnt (s : State) (a : Nat) (w : Word) : (s.ibufWrite a w).blkcnt = s.blkcnt := rfl
@[simp] theorem State.ibufWrite_variant (s : State) (a : Nat) (w : Word) : (s.ibufWrite a w).variant = s.variant := rfl
@[simp] theorem State.ibufWrite_altshift (s : State) (a : Nat) (w : Word) : (s.ibufWrite a w).altshift = s.altshift := rfl
@[simp] theorem State.ibufWrite_ilen (s : State) (a : Nat) (w : Word) : (s.ibufWrite a w).ilen = s.ilen := rfl
@[simp] theorem State.ibufWrite_olen (s : State) (a : Nat) (w : Word) : (s.ibufWrite a w).olen = s.olen := rfl
@[simp] theorem State.ibufWrite_key (s : State) (a : Nat) (w : Word) : (s.ibufWrite a w).key = s.key := rfl
@[simp] theorem State.ibufWrite_iv (s : State) (a : Nat) (w : Word) : (s.ibufWrite a w).iv = s.iv := rfl
@[simp] theorem State.ibufWrite_din (s : State) (a : Nat) (w : Word) : (s.ibufWrite a w).din = s.din := rfl
@[simp] theorem State.ibufWrite_dout (s : State) (a : Nat) (w : Word) : (s.ibufWrite a w).dout = s.dout := rfl
@[simp] theorem State.ibufWrite_chain (s : State) (a : Nat) (w : Word) : (s.ibufWrite a w).chain = s.chain := rfl
@[simp] theorem State.ibufWrite_ks (s : State) (a : Nat) (w : Word) : (s.ibufWrite a w).ks = s.ks := rfl
@[simp] theorem State.ibufWrite_tr (s : State) (a : Nat) (w : Word) : (s.ibufWrite a w).tr = s.tr := rfl
@[simp] theorem State.ibufWrite_ibuf (s : State) (a : Nat) (w : Word) : (s.ibufWrite a w).ibuf = s.ibuf.writeBytes a 4 w := rfl
@[simp] theorem State.ibufWrite_obuf (s : State) (a : Nat) (w : Word) : (s.ibufWrite a w).obuf = s.obuf := rfl
@[simp] theorem State.ibufWrite_bufBytes (s : State) (a : Nat) (w : Word) : (s.ibufWrite a w).bufBytes = s.bufBytes := rfl
@[simp] theorem State.ibufWrite_pending (s : State) (a : Nat) (w : Word) : (s.ibufWrite a w).pending = s.pending := rfl
@[simp] theorem State.ibufWrite_resp (s : State) (a : Nat) (w : Word) : (s.ibufWrite a w).resp = s.resp := rfl
@[simp] theorem State.ibufWrite_draws (s : State) (a : Nat) (w : Word) : (s.ibufWrite a w).draws = s.draws := rfl
@[simp] theorem State.ibufWrite_epoch (s : State) (a : Nat) (w : Word) : (s.ibufWrite a w).epoch = s.epoch := rfl

/-! ### hostSetKey -/

@[simp] theorem State.hostSetKey_status_err (s : State) (v : Block) : (s.hostSetKey v).status.err = s.status.err := rfl
@[simp] theorem State.hostSetKey_status_errs (s : State) (v : Block) : (s.hostSetKey v).status.errs = s.status.errs := rfl
@[simp] theorem State.hostSetKey_status_padinv (s : State) (v : Block) : (s.hostSetKey v).status.padinv = s.status.padinv := rfl
@[simp] theorem State.hostSetKey_status_trvalid (s : State) (v : Block) : (s.hostSetKey v).status.trvalid = s.status.trvalid := rfl
@[simp] theorem State.hostSetKey_status_ksvalid (s : State) (v : Block) : (s.hostSetKey v).status.ksvalid = false := rfl
@[simp] theorem State.hostSetKey_status_mode (s : State) (v : Block) : (s.hostSetKey v).status.mode = s.status.mode := rfl
@[simp] theorem State.hostSetKey_blkcnt (s : State) (v : Block) : (s.hostSetKey v).blkcnt = s.blkcnt := rfl
@[simp] theorem State.hostSetKey_variant (s : State) (v : Block) : (s.hostSetKey v).variant = s.variant := rfl
@[simp] theorem State.hostSetKey_altshift (s : State) (v : Block) : (s.hostSetKey v).altshift = s.altshift := rfl
@[simp] theorem State.hostSetKey_ilen (s : State) (v : Block) : (s.hostSetKey v).ilen = s.ilen := rfl
@[simp] theorem State.hostSetKey_olen (s : State) (v : Block) : (s.hostSetKey v).olen = s.olen := rfl
@[simp] theorem State.hostSetKey_key (s : State) (v : Block) : (s.hostSetKey v).key = v := rfl
@[simp] theorem State.hostSetKey_iv (s : State) (v : Block) : (s.hostSetKey v).iv = s.iv := rfl
@[simp] theorem State.hostSetKey_din (s : State) (v : Block) : (s.hostSetKey v).din = s.din := rfl
@[simp] theorem State.hostSetKey_dout (s : State) (v : Block) : (s.hostSetKey v).dout = s.dout := rfl
@[simp] theorem State.hostSetKey_chain (s : State) (v : Block) : (s.hostSetKey v).chain = s.chain := rfl
@[simp] theorem State.hostSetKey_ks (s : State) (v : Block) : (s.hostSetKey v).ks = s.ks := rfl
@[simp] theorem State.hostSetKey_tr (s : State) (v : Block) : (s.hostSetKey v).tr = s.tr := rfl
@[simp] theorem State.hostSetKey_ibuf (s : State) (v : Block) : (s.hostSetKey v).ibuf = s.ibuf := rfl
@[simp] theorem State.hostSetKey_obuf (s : State) (v : Block) : (s.hostSetKey v).obuf = s.obuf := rfl
@[simp] theorem State.hostSetKey_bufBytes (s : State) (v : Block) : (s.hostSetKey v).bufBytes = s.bufBytes := rfl
@[simp] theorem State.hostSetKey_pending (s : State) (v : Block) : (s.hostSetKey v).pending = s.pending := rfl
@[simp] theorem State.hostSetKey_resp (s : State) (v : Block) : (s.hostSetKey v).resp = s.resp := rfl
@[simp] theorem State.hostSetKey_draws (s : State) (v : Block) : (s.hostSetKey v).draws = s.draws := rfl
@[simp] theorem State.hostSetKey_epoch (s : State) (v : Block) : (s.hostSetKey v).epoch = s.epoch := rfl

/-! ### setIv -/

@[simp] theorem State.setIv_status (s : State) (v : Block) : (s.setIv v).status = s.status := rfl
@[simp] theorem State.setIv_blkcnt (s : State) (v : Block) : (s.setIv v).blkcnt = s.blkcnt := rfl
@[simp] theorem State.setIv_variant (s : State) (v : Block) : (s.setIv v).variant = s.variant := rfl
@[simp] theorem State.setIv_altshift (s : State) (v : Block) : (s.setIv v).altshift = s.altshift := rfl
@[simp] theorem State.setIv_ilen (s : State) (v : Block) : (s.setIv v).ilen = s.ilen := rfl
@[simp] theorem State.setIv_olen (s : State) (v : Block) : (s.setIv v).olen = s.olen := rfl
@[simp] theorem State.setIv_key (s : State) (v : Block) : (s.setIv v).key = s.key := rfl
@[simp] theorem State.setIv_iv (s : State) (v : Block) : (s.setIv v).iv = v := rfl
@[simp] theorem State.setIv_din (s : State) (v : Block) : (s.setIv v).din = s.din := rfl
@[simp] theorem State.setIv_dout (s : State) (v : Block) : (s.setIv v).dout = s.dout := rfl
@[simp] theorem State.setIv_chain (s : State) (v : Block) : (s.setIv v).chain = s.chain := rfl
@[simp] theorem State.setIv_ks (s : State) (v : Block) : (s.setIv v).ks = s.ks := rfl
@[simp] theorem State.setIv_tr (s : State) (v : Block) : (s.setIv v).tr = s.tr := rfl
@[simp] theorem State.setIv_ibuf (s : State) (v : Block) : (s.setIv v).ibuf = s.ibuf := rfl
@[simp] theorem State.setIv_obuf (s : State) (v : Block) : (s.setIv v).obuf = s.obuf := rfl
@[simp] theorem State.setIv_bufBytes (s : State) (v : Block) : (s.setIv v).bufBytes = s.bufBytes := rfl
@[simp] theorem State.setIv_pending (s : State) (v : Block) : (s.setIv v).pending = s.pending := rfl
@[simp] theorem State.setIv_resp (s : State) (v : Block) : (s.setIv v).resp = s.resp := rfl
@[simp] theorem State.setIv_draws (s : State) (v : Block) : (s.setIv v).draws = s.draws := rfl
@[simp] theorem State.setIv_epoch (s : State) (v : Block) : (s.setIv v).epoch = s.epoch := rfl

/-! ### setDin -/

@[simp] theorem State.setDin_status (s : State) (v : Block) : (s.setDin v).status = s.status := rfl
@[simp] theorem State.setDin_blkcnt (s : State) (v : Block) : (s.setDin v).blkcnt = s.blkcnt := rfl
@[simp] theorem State.setDin_variant (s : State) (v : Block) : (s.setDin v).variant = s.variant := rfl
@[simp] theorem State.setDin_altshift (s : State) (v : Block) : (s.setDin v).altshift = s.altshift := rfl
@[simp] theorem State.setDin_ilen (s : State) (v : Block) : (s.setDin v).ilen = s.ilen := rfl
@[simp] theorem State.setDin_olen (s : State) (v : Block) : (s.setDin v).olen = s.olen := rfl
@[simp] theorem State.setDin_key (s : State) (v : Block) : (s.setDin v).key = s.key := rfl
@[simp] theorem State.setDin_iv (s : State) (v : Block) : (s.setDin v).iv = s.iv := rfl
@[simp] theorem State.setDin_din (s : State) (v : Block) : (s.setDin v).din = v := rfl
@[simp] theorem State.setDin_dout (s : State) (v : Block) : (s.setDin v).dout = s.dout := rfl
@[simp] theorem State.setDin_chain (s : State) (v : Block) : (s.setDin v).chain = s.chain := rfl
@[simp] theorem State.setDin_ks (s : State) (v : Block) : (s.setDin v).ks = s.ks := rfl
@[simp] theorem State.setDin_tr (s : State) (v : Block) : (s.setDin v).tr = s.tr := rfl
@[simp] theorem State.setDin_ibuf (s : State) (v : Block) : (s.setDin v).ibuf = s.ibuf := rfl
@[simp] theorem State.setDin_obuf (s : State) (v : Block) : (s.setDin v).obuf = s.obuf := rfl
@[simp] theorem State.setDin_bufBytes (s : State) (v : Block) : (s.setDin v).bufBytes = s.bufBytes := rfl
@[simp] theorem State.setDin_pending (s : State) (v : Block) : (s.setDin v).pending = s.pending := rfl
@[simp] theorem State.setDin_resp (s : State) (v : Block) : (s.setDin v).resp = s.resp := rfl
@[simp] theorem State.setDin_draws (s : State) (v : Block) : (s.setDin v).draws = s.draws := rfl
@[simp] theorem State.setDin_epoch (s : State) (v : Block) : (s.setDin v).epoch = s.epoch := rfl

/-! ### setDout -/

@[simp] theorem State.setDout_status (s : State) (v : Block) : (s.setDout v).status = s.status := rfl
@[simp] theorem State.setDout_blkcnt (s : State) (v : Block) : (s.setDout v).blkcnt = s.blkcnt := rfl
@[simp] theorem State.setDout_variant (s : State) (v : Block) : (s.setDout v).variant = s.variant := rfl
@[simp] theorem State.setDout_altshift (s : State) (v : Block) : (s.setDout v).altshift = s.altshift := rfl
@[simp] theorem State.setDout_ilen (s : State) (v : Block) : (s.setDout v).ilen = s.ilen := rfl
@[simp] theorem State.setDout_olen (s : State) (v : Block) : (s.setDout v).olen = s.olen := rfl
@[simp] theorem State.setDout_key (s : State) (v : Block) : (s.setDout v).key = s.key := rfl
@[simp] theorem State.setDout_iv (s : State) (v : Block) : (s.setDout v).iv = s.iv := rfl
@[simp] theorem State.setDout_din (s : State) (v : Block) : (s.setDout v).din = s.din := rfl
@[simp] theorem State.setDout_dout (s : State) (v : Block) : (s.setDout v).dout = v := rfl
@[simp] theorem State.setDout_chain (s : State) (v : Block) : (s.setDout v).chain = s.chain := rfl
@[simp] theorem State.setDout_ks (s : State) (v : Block) : (s.setDout v).ks = s.ks := rfl
@[simp] theorem State.setDout_tr (s : State) (v : Block) : (s.setDout v).tr = s.tr := rfl
@[simp] theorem State.setDout_ibuf (s : State) (v : Block) : (s.setDout v).ibuf = s.ibuf := rfl
@[simp] theorem State.setDout_obuf (s : State) (v : Block) : (s.setDout v).obuf = s.obuf := rfl
@[simp] theorem State.setDout_bufBytes (s : State) (v : Block) : (s.setDout v).bufBytes = s.bufBytes := rfl
@[simp] theorem State.setDout_pending (s : State) (v : Block) : (s.setDout v).pending = s.pending := rfl
@[simp] theorem State.setDout_resp (s : State) (v : Block) : (s.setDout v).resp = s.resp := rfl
@[simp] theorem State.setDout_draws (s : State) (v : Block) : (s.setDout v).draws = s.draws := rfl
@[simp] theorem State.setDout_epoch (s : State) (v : Block) : (s.setDout v).epoch = s.epoch := rfl

/-! ### setChain -/

@[simp] theorem State.setChain_status (s : State) (v : Block) : (s.setChain v).status = s.status := rfl
@[simp] theorem State.setChain_blkcnt (s : State) (v : Block) : (s.setChain v).blkcnt = s.blkcnt := rfl
@[simp] theorem State.setChain_variant (s : State) (v : Block) : (s.setChain v).variant = s.variant := rfl
@[simp] theorem State.setChain_altshift (s : State) (v : Block) : (s.setChain v).altshift = s.altshift := rfl
@[simp] theorem State.setChain_ilen (s : State) (v : Block) : (s.setChain v).ilen = s.ilen := rfl
@[simp] theorem State.setChain_olen (s : State) (v : Block) : (s.setChain v).olen = s.olen := rfl
@[simp] theorem State.setChain_key (s : State) (v : Block) : (s.setChain v).key = s.key := rfl
@[simp] theorem State.setChain_iv (s : State) (v : Block) : (s.setChain v).iv = s.iv := rfl
@[simp] theorem State.setChain_din (s : State) (v : Block) : (s.setChain v).din = s.din := rfl
@[simp] theorem State.setChain_dout (s : State) (v : Block) : (s.setChain v).dout = s.dout := rfl
@[simp] theorem State.setChain_chain (s : State) (v : Block) : (s.setChain v).chain = v := rfl
@[simp] theorem State.setChain_ks (s : State) (v : Block) : (s.setChain v).ks = s.ks := rfl
@[simp] theorem State.setChain_tr (s : State) (v : Block) : (s.setChain v).tr = s.tr := rfl
@[simp] theorem State.setChain_ibuf (s : State) (v : Block) : (s.setChain v).ibuf = s.ibuf := rfl
@[simp] theorem State.setChain_obuf (s : State) (v : Block) : (s.setChain v).obuf = s.obuf := rfl
@[simp] theorem State.setChain_bufBytes (s : State) (v : Block) : (s.setChain v).bufBytes = s.bufBytes := rfl
@[simp] theorem State.setChain_pending (s : State) (v : Block) : (s.setChain v).pending = s.pending := rfl
@[simp] theorem State.setChain_resp (s : State) (v : Block) : (s.setChain v).resp = s.resp := rfl
@[simp] theorem State.setChain_draws (s : State) (v : Block) : (s.setChain v).draws = s.draws := rfl
@[simp] theorem State.setChain_epoch (s : State) (v : Block) : (s.setChain v).epoch = s.epoch := rfl

/-! ### countBlock -/

@[simp] theorem State.countBlock_status (s : State) : (s.countBlock).status = s.status := rfl
@[simp] theorem State.countBlock_blkcnt (s : State) : (s.countBlock).blkcnt = s.blkcnt + 1#32 := rfl
@[simp] theorem State.countBlock_variant (s : State) : (s.countBlock).variant = s.variant := rfl
@[simp] theorem State.countBlock_altshift (s : State) : (s.countBlock).altshift = s.altshift := rfl
@[simp] theorem State.countBlock_ilen (s : State) : (s.countBlock).ilen = s.ilen := rfl
@[simp] theorem State.countBlock_olen (s : State) : (s.countBlock).olen = s.olen := rfl
@[simp] theorem State.countBlock_key (s : State) : (s.countBlock).key = s.key := rfl
@[simp] theorem State.countBlock_iv (s : State) : (s.countBlock).iv = s.iv := rfl
@[simp] theorem State.countBlock_din (s : State) : (s.countBlock).din = s.din := rfl
@[simp] theorem State.countBlock_dout (s : State) : (s.countBlock).dout = s.dout := rfl
@[simp] theorem State.countBlock_chain (s : State) : (s.countBlock).chain = s.chain := rfl
@[simp] theorem State.countBlock_ks (s : State) : (s.countBlock).ks = s.ks := rfl
@[simp] theorem State.countBlock_tr (s : State) : (s.countBlock).tr = s.tr := rfl
@[simp] theorem State.countBlock_ibuf (s : State) : (s.countBlock).ibuf = s.ibuf := rfl
@[simp] theorem State.countBlock_obuf (s : State) : (s.countBlock).obuf = s.obuf := rfl
@[simp] theorem State.countBlock_bufBytes (s : State) : (s.countBlock).bufBytes = s.bufBytes := rfl
@[simp] theorem State.countBlock_pending (s : State) : (s.countBlock).pending = s.pending := rfl
@[simp] theorem State.countBlock_resp (s : State) : (s.countBlock).resp = s.resp := rfl
@[simp] theorem State.countBlock_draws (s : State) : (s.countBlock).draws = s.draws := rfl
@[simp] theorem State.countBlock_epoch (s : State) : (s.countBlock).epoch = s.epoch := rfl

/-! ### setVariant -/

@[simp] theorem State.setVariant_status (s : State) (v : Variant) : (s.setVariant v).status = s.status := rfl
@[simp] theorem State.setVariant_blkcnt (s : State) (v : Variant) : (s.setVariant v).blkcnt = s.blkcnt := rfl
@[simp] theorem State.setVariant_variant (s : State) (v : Variant) : (s.setVariant v).variant = v := rfl
@[simp] theorem State.setVariant_altshift (s : State) (v : Variant) : (s.setVariant v).altshift = s.altshift := rfl
@[simp] theorem State.setVariant_ilen (s : State) (v : Variant) : (s.setVariant v).ilen = s.ilen := rfl
@[simp] theorem State.setVariant_olen (s : State) (v : Variant) : (s.setVariant v).olen = s.olen := rfl
@[simp] theorem State.setVariant_key (s : State) (v : Variant) : (s.setVariant v).key = s.key := rfl
@[simp] theorem State.setVariant_iv (s : State) (v : Variant) : (s.setVariant v).iv = s.iv := rfl
@[simp] theorem State.setVariant_din (s : State) (v : Variant) : (s.setVariant v).din = s.din := rfl
@[simp] theorem State.setVariant_dout (s : State) (v : Variant) : (s.setVariant v).dout = s.dout := rfl
@[simp] theorem State.setVariant_chain (s : State) (v : Variant) : (s.setVariant v).chain = s.chain := rfl
@[simp] theorem State.setVariant_ks (s : State) (v : Variant) : (s.setVariant v).ks = s.ks := rfl
@[simp] theorem State.setVariant_tr (s : State) (v : Variant) : (s.setVariant v).tr = s.tr := rfl
@[simp] theorem State.setVariant_ibuf (s : State) (v : Variant) : (s.setVariant v).ibuf = s.ibuf := rfl
@[simp] theorem State.setVariant_obuf (s : State) (v : Variant) : (s.setVariant v).obuf = s.obuf := rfl
@[simp] theorem State.setVariant_bufBytes (s : State) (v : Variant) : (s.setVariant v).bufBytes = s.bufBytes := rfl
@[simp] theorem State.setVariant_pending (s : State) (v : Variant) : (s.setVariant v).pending = s.pending := rfl
@[simp] theorem State.setVariant_resp (s : State) (v : Variant) : (s.setVariant v).resp = s.resp := rfl
@[simp] theorem State.setVariant_draws (s : State) (v : Variant) : (s.setVariant v).draws = s.draws := rfl
@[simp] theorem State.setVariant_epoch (s : State) (v : Variant) : (s.setVariant v).epoch = s.epoch := rfl

/-! ### setAltshift -/

@[simp] theorem State.setAltshift_status (s : State) (w : Word) : (s.setAltshift w).status = s.status := rfl
@[simp] theorem State.setAltshift_blkcnt (s : State) (w : Word) : (s.setAltshift w).blkcnt = s.blkcnt := rfl
@[simp] theorem State.setAltshift_variant (s : State) (w : Word) : (s.setAltshift w).variant = s.variant := rfl
@[simp] theorem State.setAltshift_altshift (s : State) (w : Word) : (s.setAltshift w).altshift = w := rfl
@[simp] theorem State.setAltshift_ilen (s : State) (w : Word) : (s.setAltshift w).ilen = s.ilen := rfl
@[simp] theorem State.setAltshift_olen (s : State) (w : Word) : (s.setAltshift w).olen = s.olen := rfl
@[simp] theorem State.setAltshift_key (s : State) (w : Word) : (s.setAltshift w).key = s.key := rfl
@[simp] theorem State.setAltshift_iv (s : State) (w : Word) : (s.setAltshift w).iv = s.iv := rfl
@[simp] theorem State.setAltshift_din (s : State) (w : Word) : (s.setAltshift w).din = s.din := rfl
@[simp] theorem State.setAltshift_dout (s : State) (w : Word) : (s.setAltshift w).dout = s.dout := rfl
@[simp] theorem State.setAltshift_chain (s : State) (w : Word) : (s.setAltshift w).chain = s.chain := rfl
@[simp] theorem State.setAltshift_ks (s : State) (w : Word) : (s.setAltshift w).ks = s.ks := rfl
@[simp] theorem State.setAltshift_tr (s : State) (w : Word) : (s.setAltshift w).tr = s.tr := rfl
@[simp] theorem State.setAltshift_ibuf (s : State) (w : Word) : (s.setAltshift w).ibuf = s.ibuf := rfl
@[simp] theorem State.setAltshift_obuf (s : State) (w : Word) : (s.setAltshift w).obuf = s.obuf := rfl
@[simp] theorem State.setAltshift_bufBytes (s : State) (w : Word) : (s.setAltshift w).bufBytes = s.bufBytes := rfl
@[simp] theorem State.setAltshift_pending (s : State) (w : Word) : (s.setAltshift w).pending = s.pending := rfl
@[simp] theorem State.setAltshift_resp (s : State) (w : Word) : (s.setAltshift w).resp = s.resp := rfl
@[simp] theorem State.setAltshift_draws (s : State) (w : Word) : (s.setAltshift w).draws = s.draws := rfl
@[simp] theorem State.setAltshift_epoch (s : State) (w : Word) : (s.setAltshift w).epoch = s.epoch := rfl

/-! ### setIlen -/

@[simp] theorem State.setIlen_status (s : State) (w : Word) : (s.setIlen w).status = s.status := rfl
@[simp] theorem State.setIlen_blkcnt (s : State) (w : Word) : (s.setIlen w).blkcnt = s.blkcnt := rfl
@[simp] theorem State.setIlen_variant (s : State) (w : Word) : (s.setIlen w).variant = s.variant := rfl
@[simp] theorem State.setIlen_altshift (s : State) (w : Word) : (s.setIlen w).altshift = s.altshift := rfl
@[simp] theorem State.setIlen_ilen (s : State) (w : Word) : (s.setIlen w).ilen = w := rfl
@[simp] theorem State.setIlen_olen (s : State) (w : Word) : (s.setIlen w).olen = s.olen := rfl
@[simp] theorem State.setIlen_key (s : State) (w : Word) : (s.setIlen w).key = s.key := rfl
@[simp] theorem State.setIlen_iv (s : State) (w : Word) : (s.setIlen w).iv = s.iv := rfl
@[simp] theorem State.setIlen_din (s : State) (w : Word) : (s.setIlen w).din = s.din := rfl
@[simp] theorem State.setIlen_dout (s : State) (w : Word) : (s.setIlen w).dout = s.dout := rfl
@[simp] theorem State.setIlen_chain (s : State) (w : Word) : (s.setIlen w).chain = s.chain := rfl
@[simp] theorem State.setIlen_ks (s : State) (w : Word) : (s.setIlen w).ks = s.ks := rfl
@[simp] theorem State.setIlen_tr (s : State) (w : Word) : (s.setIlen w).tr = s.tr := rfl
@[simp] theorem State.setIlen_ibuf (s : State) (w : Word) : (s.setIlen w).ibuf = s.ibuf := rfl
@[simp] theorem State.setIlen_obuf (s : State) (w : Word) : (s.setIlen w).obuf = s.obuf := rfl
@[simp] theorem State.setIlen_bufBytes (s : State) (w : Word) : (s.setIlen w).bufBytes = s.bufBytes := rfl
@[simp] theorem State.setIlen_pending (s : State) (w : Word) : (s.setIlen w).pending = s.pending := rfl
@[simp] theorem State.setIlen_resp (s : State) (w : Word) : (s.setIlen w).resp = s.resp := rfl
@[simp] theorem State.setIlen_draws (s : State) (w : Word) : (s.setIlen w).draws = s.draws := rfl
@[simp] theorem State.setIlen_epoch (s : State) (w : Word) : (s.setIlen w).epoch = s.epoch := rfl

/-! ### setOlen -/

@[simp] theorem State.setOlen_status (s : State) (n : Nat) : (s.setOlen n).status = s.status := rfl
@[simp] theorem State.setOlen_blkcnt (s : State) (n : Nat) : (s.setOlen n).blkcnt = s.blkcnt := rfl
@[simp] theorem State.setOlen_variant (s : State) (n : Nat) : (s.setOlen n).variant = s.variant := rfl
@[simp] theorem State.setOlen_altshift (s : State) (n : Nat) : (s.setOlen n).altshift = s.altshift := rfl
@[simp] theorem State.setOlen_ilen (s : State) (n : Nat) : (s.setOlen n).ilen = s.ilen := rfl
@[simp] theorem State.setOlen_olen (s : State) (n : Nat) : (s.setOlen n).olen = BitVec.ofNat 32 n := rfl
@[simp] theorem State.setOlen_key (s : State) (n : Nat) : (s.setOlen n).key = s.key := rfl
@[simp] theorem State.setOlen_iv (s : State) (n : Nat) : (s.setOlen n).iv = s.iv := rfl
@[simp] theorem State.setOlen_din (s : State) (n : Nat) : (s.setOlen n).din = s.din := rfl
@[simp] theorem State.setOlen_dout (s : State) (n : Nat) : (s.setOlen n).dout = s.dout := rfl
@[simp] theorem State.setOlen_chain (s : State) (n : Nat) : (s.setOlen n).chain = s.chain := rfl
@[simp] theorem State.setOlen_ks (s : State) (n : Nat) : (s.setOlen n).ks = s.ks := rfl
@[simp] theorem State.setOlen_tr (s : State) (n : Nat) : (s.setOlen n).tr = s.tr := rfl
@[simp] theorem State.setOlen_ibuf (s : State) (n : Nat) : (s.setOlen n).ibuf = s.ibuf := rfl
@[simp] theorem State.setOlen_obuf (s : State) (n : Nat) : (s.setOlen n).obuf = s.obuf := rfl
@[simp] theorem State.setOlen_bufBytes (s : State) (n : Nat) : (s.setOlen n).bufBytes = s.bufBytes := rfl
@[simp] theorem State.setOlen_pending (s : State) (n : Nat) : (s.setOlen n).pending = s.pending := rfl
@[simp] theorem State.setOlen_resp (s : State) (n : Nat) : (s.setOlen n).resp = s.resp := rfl
@[simp] theorem State.setOlen_draws (s : State) (n : Nat) : (s.setOlen n).draws = s.draws := rfl
@[simp] theorem State.setOlen_epoch (s : State) (n : Nat) : (s.setOlen n).epoch = s.epoch := rfl

/-! ### setPadinv -/

@[simp] theorem State.setPadinv_status_err (s : State) (b : Bool) : (s.setPadinv b).status.err = s.status.err := rfl
@[simp] theorem State.setPadinv_status_errs (s : State) (b : Bool) : (s.setPadinv b).status.errs = s.status.errs := rfl
@[simp] theorem State.setPadinv_status_padinv (s : State) (b : Bool) : (s.setPadinv b).status.padinv = b := rfl
@[simp] theorem State.setPadinv_status_trvalid (s : State) (b : Bool) : (s.setPadinv b).status.trvalid = s.status.trvalid := rfl
@[simp] theorem State.setPadinv_status_ksvalid (s : State) (b : Bool) : (s.setPadinv b).status.ksvalid = s.status.ksvalid := rfl
@[simp] theorem State.setPadinv_status_mode (s : State) (b : Bool) : (s.setPadinv b).status.mode = s.status.mode := rfl
@[simp] theorem State.setPadinv_blkcnt (s : State) (b : Bool) : (s.setPadinv b).blkcnt = s.blkcnt := rfl
@[simp] theorem State.setPadinv_variant (s : State) (b : Bool) : (s.setPadinv b).variant = s.variant := rfl
@[simp] theorem State.setPadinv_altshift (s : State) (b : Bool) : (s.setPadinv b).altshift = s.altshift := rfl
@[simp] theorem State.setPadinv_ilen (s : State) (b : Bool) : (s.setPadinv b).ilen = s.ilen := rfl
@[simp] theorem State.setPadinv_olen (s : State) (b : Bool) : (s.setPadinv b).olen = s.olen := rfl
@[simp] theorem State.setPadinv_key (s : State) (b : Bool) : (s.setPadinv b).key = s.key := rfl
@[simp] theorem State.setPadinv_iv (s : State) (b : Bool) : (s.setPadinv b).iv = s.iv := rfl
@[simp] theorem State.setPadinv_din (s : State) (b : Bool) : (s.setPadinv b).din = s.din := rfl
@[simp] theorem State.setPadinv_dout (s : State) (b : Bool) : (s.setPadinv b).dout = s.dout := rfl
@[simp] theorem State.setPadinv_chain (s : State) (b : Bool) : (s.setPadinv b).chain = s.chain := rfl
@[simp] theorem State.setPadinv_ks (s : State) (b : Bool) : (s.setPadinv b).ks = s.ks := rfl
@[simp] theorem State.setPadinv_tr (s : State) (b : Bool) : (s.setPadinv b).tr = s.tr := rfl
@[simp] theorem State.setPadinv_ibuf (s : State) (b : Bool) : (s.setPadinv b).ibuf = s.ibuf := rfl
@[simp] theorem State.setPadinv_obuf (s : State) (b : Bool) : (s.setPadinv b).obuf = s.obuf := rfl
@[simp] theorem State.setPadinv_bufBytes (s : State) (b : Bool) : (s.setPadinv b).bufBytes = s.bufBytes := rfl
@[simp] theorem State.setPadinv_pending (s : State) (b : Bool) : (s.setPadinv b).pending = s.pending := rfl
@[simp] theorem State.setPadinv_resp (s : State) (b : Bool) : (s.setPadinv b).resp = s.resp := rfl
@[simp] theorem State.setPadinv_draws (s : State) (b : Bool) : (s.setPadinv b).draws = s.draws := rfl
@[simp] theorem State.setPadinv_epoch (s : State) (b : Bool) : (s.setPadinv b).epoch = s.epoch := rfl

/-! ### storeKs -/

@[simp] theorem State.storeKs_status_err (s : State) (b : KsBank) : (s.storeKs b).status.err = s.status.err := rfl
@[simp] theorem State.storeKs_status_errs (s : State) (b : KsBank) : (s.storeKs b).status.errs = s.status.errs := rfl
@[simp] theorem State.storeKs_status_padinv (s : State) (b : KsBank) : (s.storeKs b).status.padinv = s.status.padinv := rfl
@[simp] theorem State.storeKs_status_trvalid (s : State) (b : KsBank) : (s.storeKs b).status.trvalid = s.status.trvalid := rfl
@[simp] theorem State.storeKs_status_ksvalid (s : State) (b : KsBank) : (s.storeKs b).status.ksvalid = true := rfl
@[simp] theorem State.storeKs_status_mode (s : State) (b : KsBank) : (s.storeKs b).status.mode = s.status.mode := rfl
@[simp] theorem State.storeKs_blkcnt (s : State) (b : KsBank) : (s.storeKs b).blkcnt = s.blkcnt := rfl
@[simp] theorem State.storeKs_variant (s : State) (b : KsBank) : (s.storeKs b).variant = s.variant := rfl
@[simp] theorem State.storeKs_altshift (s : State) (b : KsBank) : (s.storeKs b).altshift = s.altshift := rfl
@[simp] theorem State.storeKs_ilen (s : State) (b : KsBank) : (s.storeKs b).ilen = s.ilen := rfl
@[simp] theorem State.storeKs_olen (s : State) (b : KsBank) : (s.storeKs b).olen = s.olen := rfl
@[simp] theorem State.storeKs_key (s : State) (b : KsBank) : (s.storeKs b).key = s.key := rfl
@[simp] theorem State.storeKs_iv (s : State) (b : KsBank) : (s.storeKs b).iv = s.iv := rfl
@[simp] theorem State.storeKs_din (s : State) (b : KsBank) : (s.storeKs b).din = s.din := rfl
@[simp] theorem State.storeKs_dout (s : State) (b : KsBank) : (s.storeKs b).dout = s.dout := rfl
@[simp] theorem State.storeKs_chain (s : State) (b : KsBank) : (s.storeKs b).chain = s.chain := rfl
@[simp] theorem State.storeKs_ks (s : State) (b : KsBank) : (s.storeKs b).ks = b := rfl
@[simp] theorem State.storeKs_tr (s : State) (b : KsBank) : (s.storeKs b).tr = s.tr := rfl
@[simp] theorem State.storeKs_ibuf (s : State) (b : KsBank) : (s.storeKs b).ibuf = s.ibuf := rfl
@[simp] theorem State.storeKs_obuf (s : State) (b : KsBank) : (s.storeKs b).obuf = s.obuf := rfl
@[simp] theorem State.storeKs_bufBytes (s : State) (b : KsBank) : (s.storeKs b).bufBytes = s.bufBytes := rfl
@[simp] theorem State.storeKs_pending (s : State) (b : KsBank) : (s.storeKs b).pending = s.pending := rfl
@[simp] theorem State.storeKs_resp (s : State) (b : KsBank) : (s.storeKs b).resp = s.resp := rfl
@[simp] theorem State.storeKs_draws (s : State) (b : KsBank) : (s.storeKs b).draws = s.draws := rfl
@[simp] theorem State.storeKs_epoch (s : State) (b : KsBank) : (s.storeKs b).epoch = s.epoch := rfl

/-! ### storeTr -/

@[simp] theorem State.storeTr_status_err (s : State) (t : TrBank) : (s.storeTr t).status.err = s.status.err := rfl
@[simp] theorem State.storeTr_status_errs (s : State) (t : TrBank) : (s.storeTr t).status.errs = s.status.errs := rfl
@[simp] theorem State.storeTr_status_padinv (s : State) (t : TrBank) : (s.storeTr t).status.padinv = s.status.padinv := rfl
@[simp] theorem State.storeTr_status_trvalid (s : State) (t : TrBank) : (s.storeTr t).status.trvalid = true := rfl
@[simp] theorem State.storeTr_status_ksvalid (s : State) (t : TrBank) : (s.storeTr t).status.ksvalid = s.status.ksvalid := rfl
@[simp] theorem State.storeTr_status_mode (s : State) (t : TrBank) : (s.storeTr t).status.mode = s.status.mode := rfl
@[simp] theorem State.storeTr_blkcnt (s : State) (t : TrBank) : (s.storeTr t).blkcnt = s.blkcnt := rfl
@[simp] theorem State.storeTr_variant (s : State) (t : TrBank) : (s.storeTr t).variant = s.variant := rfl
@[simp] theorem State.storeTr_altshift (s : State) (t : TrBank) : (s.storeTr t).altshift = s.altshift := rfl
@[simp] theorem State.storeTr_ilen (s : State) (t : TrBank) : (s.storeTr t).ilen = s.ilen := rfl
@[simp] theorem State.storeTr_olen (s : State) (t : TrBank) : (s.storeTr t).olen = s.olen := rfl
@[simp] theorem State.storeTr_key (s : State) (t : TrBank) : (s.storeTr t).key = s.key := rfl
@[simp] theorem State.storeTr_iv (s : State) (t : TrBank) : (s.storeTr t).iv = s.iv := rfl
@[simp] theorem State.storeTr_din (s : State) (t : TrBank) : (s.storeTr t).din = s.din := rfl
@[simp] theorem State.storeTr_dout (s : State) (t : TrBank) : (s.storeTr t).dout = s.dout := rfl
@[simp] theorem State.storeTr_chain (s : State) (t : TrBank) : (s.storeTr t).chain = s.chain := rfl
@[simp] theorem State.storeTr_ks (s : State) (t : TrBank) : (s.storeTr t).ks = s.ks := rfl
@[simp] theorem State.storeTr_tr (s : State) (t : TrBank) : (s.storeTr t).tr = t := rfl
@[simp] theorem State.storeTr_ibuf (s : State) (t : TrBank) : (s.storeTr t).ibuf = s.ibuf := rfl
@[simp] theorem State.storeTr_obuf (s : State) (t : TrBank) : (s.storeTr t).obuf = s.obuf := rfl
@[simp] theorem State.storeTr_bufBytes (s : State) (t : TrBank) : (s.storeTr t).bufBytes = s.bufBytes := rfl
@[simp] theorem State.storeTr_pending (s : State) (t : TrBank) : (s.storeTr t).pending = s.pending := rfl
@[simp] theorem State.storeTr_resp (s : State) (t : TrBank) : (s.storeTr t).resp = s.resp := rfl
@[simp] theorem State.storeTr_draws (s : State) (t : TrBank) : (s.storeTr t).draws = s.draws := rfl
@[simp] theorem State.storeTr_epoch (s : State) (t : TrBank) : (s.storeTr t).epoch = s.epoch := rfl

/-! ### startChain -/

@[simp] theorem State.startChain_status_err (s : State) (m : Mode) : (s.startChain m).status.err = s.status.err := rfl
@[simp] theorem State.startChain_status_errs (s : State) (m : Mode) : (s.startChain m).status.errs = s.status.errs := rfl
@[simp] theorem State.startChain_status_padinv (s : State) (m : Mode) : (s.startChain m).status.padinv = s.status.padinv := rfl
@[simp] theorem State.startChain_status_trvalid (s : State) (m : Mode) : (s.startChain m).status.trvalid = false := rfl
@[simp] theorem State.startChain_status_ksvalid (s : State) (m : Mode) : (s.startChain m).status.ksvalid = s.status.ksvalid := rfl
@[simp] theorem State.startChain_status_mode (s : State) (m : Mode) : (s.startChain m).status.mode = m := rfl
@[simp] theorem State.startChain_blkcnt (s : State) (m : Mode) : (s.startChain m).blkcnt = 0#32 := rfl
@[simp] theorem State.startChain_variant (s : State) (m : Mode) : (s.startChain m).variant = s.variant := rfl
@[simp] theorem State.startChain_altshift (s : State) (m : Mode) : (s.startChain m).altshift = s.altshift := rfl
@[simp] theorem State.startChain_ilen (s : State) (m : Mode) : (s.startChain m).ilen = s.ilen := rfl
@[simp] theorem State.startChain_olen (s : State) (m : Mode) : (s.startChain m).olen = s.olen := rfl
@[simp] theorem State.startChain_key (s : State) (m : Mode) : (s.startChain m).key = s.key := rfl
@[simp] theorem State.startChain_iv (s : State) (m : Mode) : (s.startChain m).iv = s.iv := rfl
@[simp] theorem State.startChain_din (s : State) (m : Mode) : (s.startChain m).din = s.din := rfl
@[simp] theorem State.startChain_dout (s : State) (m : Mode) : (s.startChain m).dout = s.dout := rfl
@[simp] theorem State.startChain_chain (s : State) (m : Mode) : (s.startChain m).chain = s.iv := rfl
@[simp] theorem State.startChain_ks (s : State) (m : Mode) : (s.startChain m).ks = s.ks := rfl
@[simp] theorem State.startChain_tr (s : State) (m : Mode) : (s.startChain m).tr = s.tr := rfl
@[simp] theorem State.startChain_ibuf (s : State) (m : Mode) : (s.startChain m).ibuf = s.ibuf := rfl
@[simp] theorem State.startChain_obuf (s : State) (m : Mode) : (s.startChain m).obuf = s.obuf := rfl
@[simp] theorem State.startChain_bufBytes (s : State) (m : Mode) : (s.startChain m).bufBytes = s.bufBytes := rfl
@[simp] theorem State.startChain_pending (s : State) (m : Mode) : (s.startChain m).pending = s.pending := rfl
@[simp] theorem State.startChain_resp (s : State) (m : Mode) : (s.startChain m).resp = s.resp := rfl
@[simp] theorem State.startChain_draws (s : State) (m : Mode) : (s.startChain m).draws = s.draws := rfl
@[simp] theorem State.startChain_epoch (s : State) (m : Mode) : (s.startChain m).epoch = s.epoch := rfl

/-! ### drawIv -/

@[simp] theorem State.drawIv_status (s : State) : (s.drawIv).status = s.status := rfl
@[simp] theorem State.drawIv_blkcnt (s : State) : (s.drawIv).blkcnt = s.blkcnt := rfl
@[simp] theorem State.drawIv_variant (s : State) : (s.drawIv).variant = s.variant := rfl
@[simp] theorem State.drawIv_altshift (s : State) : (s.drawIv).altshift = s.altshift := rfl
@[simp] theorem State.drawIv_ilen (s : State) : (s.drawIv).ilen = s.ilen := rfl
@[simp] theorem State.drawIv_olen (s : State) : (s.drawIv).olen = s.olen := rfl
@[simp] theorem State.drawIv_key (s : State) : (s.drawIv).key = s.key := rfl
@[simp] theorem State.drawIv_iv (s : State) : (s.drawIv).iv = Config.draw s.draws := rfl
@[simp] theorem State.drawIv_din (s : State) : (s.drawIv).din = s.din := rfl
@[simp] theorem State.drawIv_dout (s : State) : (s.drawIv).dout = s.dout := rfl
@[simp] theorem State.drawIv_chain (s : State) : (s.drawIv).chain = s.chain := rfl
@[simp] theorem State.drawIv_ks (s : State) : (s.drawIv).ks = s.ks := rfl
@[simp] theorem State.drawIv_tr (s : State) : (s.drawIv).tr = s.tr := rfl
@[simp] theorem State.drawIv_ibuf (s : State) : (s.drawIv).ibuf = s.ibuf := rfl
@[simp] theorem State.drawIv_obuf (s : State) : (s.drawIv).obuf = s.obuf := rfl
@[simp] theorem State.drawIv_bufBytes (s : State) : (s.drawIv).bufBytes = s.bufBytes := rfl
@[simp] theorem State.drawIv_pending (s : State) : (s.drawIv).pending = s.pending := rfl
@[simp] theorem State.drawIv_resp (s : State) : (s.drawIv).resp = s.resp := rfl
@[simp] theorem State.drawIv_draws (s : State) : (s.drawIv).draws = s.draws + 1 := rfl
@[simp] theorem State.drawIv_epoch (s : State) : (s.drawIv).epoch = s.epoch := rfl

/-! ### clearErrors -/

@[simp] theorem State.clearErrors_status_err (s : State) : (s.clearErrors).status.err = .completed := rfl
@[simp] theorem State.clearErrors_status_errs (s : State) : (s.clearErrors).status.errs = false := rfl
@[simp] theorem State.clearErrors_status_padinv (s : State) : (s.clearErrors).status.padinv = s.status.padinv := rfl
@[simp] theorem State.clearErrors_status_trvalid (s : State) : (s.clearErrors).status.trvalid = s.status.trvalid := rfl
@[simp] theorem State.clearErrors_status_ksvalid (s : State) : (s.clearErrors).status.ksvalid = s.status.ksvalid := rfl
@[simp] theorem State.clearErrors_status_mode (s : State) : (s.clearErrors).status.mode = s.status.mode := rfl
@[simp] theorem State.clearErrors_blkcnt (s : State) : (s.clearErrors).blkcnt = s.blkcnt := rfl
@[simp] theorem State.clearErrors_variant (s : State) : (s.clearErrors).variant = s.variant := rfl
@[simp] theorem State.clearErrors_altshift (s : State) : (s.clearErrors).altshift = s.altshift := rfl
@[simp] theorem State.clearErrors_ilen (s : State) : (s.clearErrors).ilen = s.ilen := rfl
@[simp] theorem State.clearErrors_olen (s : State) : (s.clearErrors).olen = s.olen := rfl
@[simp] theorem State.clearErrors_key (s : State) : (s.clearErrors).key = s.key := rfl
@[simp] theorem State.clearErrors_iv (s : State) : (s.clearErrors).iv = s.iv := rfl
@[simp] theorem State.clearErrors_din (s : State) : (s.clearErrors).din = s.din := rfl
@[simp] theorem State.clearErrors_dout (s : State) : (s.clearErrors).dout = s.dout := rfl
@[simp] theorem State.clearErrors_chain (s : State) : (s.clearErrors).chain = s.chain := rfl
@[simp] theorem State.clearErrors_ks (s : State) : (s.clearErrors).ks = s.ks := rfl
@[simp] theorem State.clearErrors_tr (s : State) : (s.clearErrors).tr = s.tr := rfl
@[simp] theorem State.clearErrors_ibuf (s : State) : (s.clearErrors).ibuf = s.ibuf := rfl
@[simp] theorem State.clearErrors_obuf (s : State) : (s.clearErrors).obuf = s.obuf := rfl
@[simp] theorem State.clearErrors_bufBytes (s : State) : (s.clearErrors).bufBytes = s.bufBytes := rfl
@[simp] theorem State.clearErrors_pending (s : State) : (s.clearErrors).pending = s.pending := rfl
@[simp] theorem State.clearErrors_resp (s : State) : (s.clearErrors).resp = s.resp := rfl
@[simp] theorem State.clearErrors_draws (s : State) : (s.clearErrors).draws = s.draws := rfl
@[simp] theorem State.clearErrors_epoch (s : State) : (s.clearErrors).epoch = s.epoch := rfl

/-! ### respond -/

@[simp] theorem State.respond_status (s : State) (r : Response) : (s.respond r).status = s.status := rfl
@[simp] theorem State.respond_blkcnt (s : State) (r : Response) : (s.respond r).blkcnt = s.blkcnt := rfl
@[simp] theorem State.respond_variant (s : State) (r : Response) : (s.respond r).variant = s.variant := rfl
@[simp] theorem State.respond_altshift (s : State) (r : Response) : (s.respond r).altshift = s.altshift := rfl
@[simp] theorem State.respond_ilen (s : State) (r : Response) : (s.respond r).ilen = s.ilen := rfl
@[simp] theorem State.respond_olen (s : State) (r : Response) : (s.respond r).olen = s.olen := rfl
@[simp] theorem State.respond_key (s : State) (r : Response) : (s.respond r).key = s.key := rfl
@[simp] theorem State.respond_iv (s : State) (r : Response) : (s.respond r).iv = s.iv := rfl
@[simp] theorem State.respond_din (s : State) (r : Response) : (s.respond r).din = s.din := rfl
@[simp] theorem State.respond_dout (s : State) (r : Response) : (s.respond r).dout = s.dout := rfl
@[simp] theorem State.respond_chain (s : State) (r : Response) : (s.respond r).chain = s.chain := rfl
@[simp] theorem State.respond_ks (s : State) (r : Response) : (s.respond r).ks = s.ks := rfl
@[simp] theorem State.respond_tr (s : State) (r : Response) : (s.respond r).tr = s.tr := rfl
@[simp] theorem State.respond_ibuf (s : State) (r : Response) : (s.respond r).ibuf = s.ibuf := rfl
@[simp] theorem State.respond_obuf (s : State) (r : Response) : (s.respond r).obuf = s.obuf := rfl
@[simp] theorem State.respond_bufBytes (s : State) (r : Response) : (s.respond r).bufBytes = s.bufBytes := rfl
@[simp] theorem State.respond_pending (s : State) (r : Response) : (s.respond r).pending = s.pending := rfl
@[simp] theorem State.respond_resp (s : State) (r : Response) : (s.respond r).resp = r := rfl
@[simp] theorem State.respond_draws (s : State) (r : Response) : (s.respond r).draws = s.draws := rfl
@[simp] theorem State.respond_epoch (s : State) (r : Response) : (s.respond r).epoch = s.epoch := rfl

/-! ### softReset -/

@[simp] theorem State.softReset_status (s : State) : s.softReset.status = Status.zero := rfl
@[simp] theorem State.softReset_blkcnt (s : State) : s.softReset.blkcnt = 0#32 := rfl
@[simp] theorem State.softReset_variant (s : State) : s.softReset.variant = Variant.zero := rfl
@[simp] theorem State.softReset_altshift (s : State) : s.softReset.altshift = 0#32 := rfl
@[simp] theorem State.softReset_ilen (s : State) : s.softReset.ilen = 0#32 := rfl
@[simp] theorem State.softReset_olen (s : State) : s.softReset.olen = 0#32 := rfl
@[simp] theorem State.softReset_key (s : State) : s.softReset.key = 0#64 := rfl
@[simp] theorem State.softReset_iv (s : State) : s.softReset.iv = 0#64 := rfl
@[simp] theorem State.softReset_din (s : State) : s.softReset.din = 0#64 := rfl
@[simp] theorem State.softReset_dout (s : State) : s.softReset.dout = 0#64 := rfl
@[simp] theorem State.softReset_chain (s : State) : s.softReset.chain = 0#64 := rfl
@[simp] theorem State.softReset_ks (s : State) : s.softReset.ks = KsBank.zero := rfl
@[simp] theorem State.softReset_tr (s : State) : s.softReset.tr = TrBank.zero := rfl
@[simp] theorem State.softReset_ibuf (s : State) : s.softReset.ibuf = s.ibuf := rfl
@[simp] theorem State.softReset_obuf (s : State) : s.softReset.obuf = s.obuf := rfl
@[simp] theorem State.softReset_bufBytes (s : State) : s.softReset.bufBytes = s.bufBytes := rfl
@[simp] theorem State.softReset_pending (s : State) : s.softReset.pending = s.pending := rfl
@[simp] theorem State.softReset_resp (s : State) : s.softReset.resp = s.resp := rfl
@[simp] theorem State.softReset_draws (s : State) : s.softReset.draws = s.draws := rfl
@[simp] theorem State.softReset_epoch (s : State) : s.softReset.epoch = s.epoch := rfl

/-! ### hardReset -/

@[simp] theorem State.hardReset_status (s : State) : s.hardReset.status = Status.zero := rfl
@[simp] theorem State.hardReset_blkcnt (s : State) : s.hardReset.blkcnt = 0#32 := rfl
@[simp] theorem State.hardReset_variant (s : State) : s.hardReset.variant = Variant.zero := rfl
@[simp] theorem State.hardReset_altshift (s : State) : s.hardReset.altshift = 0#32 := rfl
@[simp] theorem State.hardReset_ilen (s : State) : s.hardReset.ilen = 0#32 := rfl
@[simp] theorem State.hardReset_olen (s : State) : s.hardReset.olen = 0#32 := rfl
@[simp] theorem State.hardReset_key (s : State) : s.hardReset.key = 0#64 := rfl
@[simp] theorem State.hardReset_iv (s : State) : s.hardReset.iv = 0#64 := rfl
@[simp] theorem State.hardReset_din (s : State) : s.hardReset.din = 0#64 := rfl
@[simp] theorem State.hardReset_dout (s : State) : s.hardReset.dout = 0#64 := rfl
@[simp] theorem State.hardReset_chain (s : State) : s.hardReset.chain = 0#64 := rfl
@[simp] theorem State.hardReset_ks (s : State) : s.hardReset.ks = KsBank.zero := rfl
@[simp] theorem State.hardReset_tr (s : State) : s.hardReset.tr = TrBank.zero := rfl
@[simp] theorem State.hardReset_ibuf (s : State) : s.hardReset.ibuf = [] := rfl
@[simp] theorem State.hardReset_obuf (s : State) : s.hardReset.obuf = [] := rfl
@[simp] theorem State.hardReset_bufBytes (s : State) : s.hardReset.bufBytes = s.bufBytes := rfl
@[simp] theorem State.hardReset_pending (s : State) : s.hardReset.pending = s.pending := rfl
@[simp] theorem State.hardReset_resp (s : State) : s.hardReset.resp = .idle := rfl
@[simp] theorem State.hardReset_draws (s : State) : s.hardReset.draws = s.draws := rfl
@[simp] theorem State.hardReset_epoch (s : State) : s.hardReset.epoch = s.epoch + 1 := rfl

end Sys2Proof.Machine
end

