-- ==== Sys2Proof/Laws/Bus.lean ====
section
/-! SUPPORT. What one step does with a host access, and which register each listed offset reaches. -/

namespace Sys2Proof.Machine

/-! ### One step -/

theorem step_read (s : State) (width offset : Nat) (rest : List HostEvent) :
    step { s with pending := .read width offset :: rest } = .next (busRead { s with pending := rest } width offset) := rfl

theorem step_write (s : State) (width offset : Nat) (w : Word) (rest : List HostEvent) :
    step { s with pending := .write width offset w :: rest } =
      match busWrite { s with pending := rest } width offset w with
      | .done t => .next t
      | .command w t => execWord w t := rfl

theorem step_hardReset (s : State) (rest : List HostEvent) :
    step { s with pending := .hardReset :: rest } = .next ({ s with pending := rest } : State).hardReset := rfl

/-- Where there is a next state, it comes from the oldest pending event, or nothing was pending and nothing changed. -/
theorem step_cases {s t : State} (h : step s = .next t) :
    (s.pending = [] ∧ t = s) ∨
    (∃ width offset rest, s.pending = .read width offset :: rest ∧ t = busRead { s with pending := rest } width offset) ∨
    (∃ width offset w rest, s.pending = .write width offset w :: rest ∧
      (busWrite { s with pending := rest } width offset w = .done t ∨
        ∃ t', busWrite { s with pending := rest } width offset w = .command w t' ∧ execWord w t' = .next t)) ∨
    (∃ rest, s.pending = .hardReset :: rest ∧ t = ({ s with pending := rest } : State).hardReset) := by
  unfold step nextEvent at h
  split at h
  · rename_i hn
    split at hn
    · rename_i hp
      cases h
      exact .inl ⟨hp, rfl⟩
    · cases hn
  · rename_i e s' hn
    split at hn
    · cases hn
    · rename_i e' rest hp
      cases hn
      cases e with
      | read width offset =>
        cases h
        exact .inr (.inl ⟨width, offset, rest, hp, rfl⟩)
      | hardReset =>
        cases h
        exact .inr (.inr (.inr ⟨rest, hp, rfl⟩))
      | write width offset w =>
        refine .inr (.inr (.inl ⟨width, offset, w, rest, hp, ?_⟩))
        simp only [busEvent] at h
        split at h
        · rename_i hb
          cases h
          exact .inl hb
        · rename_i w' t' hb
          refine .inr ⟨t', ?_, ?_⟩
          · unfold busWrite at hb ⊢
            split at hb
            · cases hb; rfl
            · split at hb <;> cases hb
            · cases hb
          · have : w' = w := by
              unfold busWrite at hb
              split at hb
              · cases hb; rfl
              · split at hb <;> cases hb
              · cases hb
            exact this ▸ h

/-! ### Offsets -/

theorem locate_unaligned {bufBytes offset : Nat} (h : offset % 4 ≠ 0) : locate bufBytes offset = none := by
  simp [locate, h]

theorem locate_control {bufBytes offset : Nat} (h : offset < 0x200) (ha : offset % 4 = 0) :
    locate bufBytes offset = locateControl offset := by
  simp [locate, h, ha]

theorem locate_ks (bufBytes : Nat) (i : Fin 16) {field : Nat} (hf : field < 0x20) (ha : field % 4 = 0) :
    locate bufBytes (0x200 + 0x20 * (i.val + 1) + field) = locateKsField i field := by
  have hi := i.isLt
  have e : 0x200 + 0x20 * (i.val + 1) + field - 0x220 = 0x20 * i.val + field := by omega
  have hq : (0x20 * i.val + field) / 0x20 = i.val := by omega
  have hr : (0x20 * i.val + field) % 0x20 = field := by omega
  unfold locate
  rw [if_neg (by omega), if_neg (by omega), if_neg (by omega), if_neg (by omega), if_neg (by omega),
    dif_pos (by omega)]
  simp only [e, hq, hr]

theorem locate_tr (bufBytes : Nat) (i : Fin 16) {field : Nat} (hf : field < 0x40) (ha : field % 4 = 0) :
    locate bufBytes (0x800 + 0x40 * i.val + field) = locateTrField i field := by
  have hi := i.isLt
  have e : 0x800 + 0x40 * i.val + field - 0x800 = 0x40 * i.val + field := by omega
  have hq : (0x40 * i.val + field) / 0x40 = i.val := by omega
  have hr : (0x40 * i.val + field) % 0x40 = field := by omega
  unfold locate
  rw [if_neg (by omega), if_neg (by omega), if_neg (by omega), if_neg (by omega), if_neg (by omega),
    dif_neg (by omega), if_neg (by omega), dif_pos (by omega)]
  simp only [e, hq, hr]

theorem locate_ibuf {bufBytes a : Nat} (ha : a % 4 = 0) (hb : a + 3 < bufBytes) (hw : a < 0x10000) :
    locate bufBytes (0x10000 + a) = some (.ibufWord a) := by
  have e : 0x10000 + a - 0x10000 = a := by omega
  unfold locate
  rw [if_neg (by omega), if_neg (by omega), if_neg (by omega), if_neg (by omega), if_neg (by omega),
    dif_neg (by omega), if_neg (by omega), dif_neg (by omega), if_neg (by omega), if_pos (by omega),
    if_pos (by omega), e]

theorem locate_obuf {bufBytes a : Nat} (ha : a % 4 = 0) (hb : a + 3 < bufBytes) (hw : a < 0x10000) :
    locate bufBytes (0x20000 + a) = some (.obufWord a) := by
  have e : 0x20000 + a - 0x20000 = a := by omega
  unfold locate
  rw [if_neg (by omega), if_neg (by omega), if_neg (by omega), if_neg (by omega), if_neg (by omega),
    dif_neg (by omega), if_neg (by omega), dif_neg (by omega), if_neg (by omega), if_neg (by omega),
    if_pos (by omega), if_pos (by omega), e]

theorem locateControl_inv {offset : Nat} {r : Reg} (h : locateControl offset = some r) : offset ∈ listedControl := by
  unfold locateControl at h
  split at h <;> first | decide | cases h

theorem locateKsField_inv {i : Fin 16} {field : Nat} {r : Reg} (h : locateKsField i field = some r) :
    field ∈ [0x00, 0x04, 0x08, 0x0C, 0x10] := by
  unfold locateKsField at h
  split at h <;> first | decide | cases h

theorem locateTrField_inv {i : Fin 16} {field : Nat} {r : Reg} (h : locateTrField i field = some r) :
    field ∈ [0x00, 0x04, 0x08, 0x0C, 0x10, 0x14, 0x18, 0x1C, 0x20, 0x24, 0x28, 0x2C] := by
  unfold locateTrField at h
  split at h <;> first | decide | cases h

/-- The offsets that reach a register, region by region of the map. -/
theorem locate_inv {bufBytes offset : Nat} {r : Reg} (h : locate bufBytes offset = some r) :
    (offset < 0x200 ∧ locateControl offset = some r) ∨
    (offset = 0x200 ∧ r = .ksC0) ∨ (offset = 0x204 ∧ r = .ksD0) ∨
    (∃ (i : Fin 16) (field : Nat), offset = 0x200 + 0x20 * (i.val + 1) + field ∧ locateKsField i field = some r) ∨
    (∃ (i : Fin 16) (field : Nat), offset = 0x800 + 0x40 * i.val + field ∧ locateTrField i field = some r) ∨
    (∃ a, offset = 0x10000 + a ∧ a % 4 = 0 ∧ a + 3 < bufBytes ∧ r = .ibufWord a) ∨
    (∃ a, offset = 0x20000 + a ∧ a % 4 = 0 ∧ a + 3 < bufBytes ∧ r = .obufWord a) := by
  unfold locate at h
  by_cases h1 : offset % 4 ≠ 0
  · rw [if_pos h1] at h; cases h
  rw [if_neg h1] at h
  by_cases h2 : offset < 0x200
  · rw [if_pos h2] at h
    exact .inl ⟨h2, h⟩
  rw [if_neg h2] at h
  by_cases h3 : offset = 0x200
  · rw [if_pos h3] at h
    exact .inr (.inl ⟨h3, (Option.some.inj h).symm⟩)
  rw [if_neg h3] at h
  by_cases h4 : offset = 0x204
  · rw [if_pos h4] at h
    exact .inr (.inr (.inl ⟨h4, (Option.some.inj h).symm⟩))
  rw [if_neg h4] at h
  by_cases h5 : offset < 0x220
  · rw [if_pos h5] at h; cases h
  rw [if_neg h5] at h
  by_cases h6 : offset - 0x220 < 16 * 0x20
  · rw [dif_pos h6] at h
    exact .inr (.inr (.inr (.inl ⟨_, _, by simp only; omega, h⟩)))
  rw [dif_neg h6] at h
  by_cases h7 : offset < 0x800
  · rw [if_pos h7] at h; cases h
  rw [if_neg h7] at h
  by_cases h8 : offset - 0x800 < 16 * 0x40
  · rw [dif_pos h8] at h
    exact .inr (.inr (.inr (.inr (.inl ⟨_, _, by simp only; omega, h⟩))))
  rw [dif_neg h8] at h
  by_cases h9 : offset < 0x10000
  · rw [if_pos h9] at h; cases h
  rw [if_neg h9] at h
  by_cases h10 : offset < 0x20000
  · rw [if_pos h10] at h
    by_cases h11 : offset - 0x10000 + 3 < bufBytes
    · rw [if_pos h11] at h
      exact .inr (.inr (.inr (.inr (.inr (.inl ⟨_, by omega, by omega, h11, (Option.some.inj h).symm⟩)))))
    · rw [if_neg h11] at h; cases h
  rw [if_neg h10] at h
  by_cases h12 : offset < 0x30000
  · rw [if_pos h12] at h
    by_cases h13 : offset - 0x20000 + 3 < bufBytes
    · rw [if_pos h13] at h
      exact .inr (.inr (.inr (.inr (.inr (.inr ⟨_, by omega, by omega, h13, (Option.some.inj h).symm⟩)))))
    · rw [if_neg h13] at h; cases h
  · rw [if_neg h12] at h; cases h

/-- Only a window of the map reaches a word of IBUF, inside BUF_BYTES and at a multiple of 4. -/
theorem locate_ibufWord_inv {bufBytes offset a : Nat} (h : locate bufBytes offset = some (.ibufWord a)) :
    offset = 0x10000 + a ∧ a % 4 = 0 ∧ a + 3 < bufBytes := by
  rcases locate_inv h with ⟨_, h⟩ | ⟨_, h⟩ | ⟨_, h⟩ | ⟨i, f, _, h⟩ | ⟨i, f, _, h⟩ | ⟨b, h1, h2, h3, h⟩ | ⟨b, _, _, _, h⟩
  · unfold locateControl at h
    split at h <;> cases h
  · cases h
  · cases h
  · unfold locateKsField at h
    split at h <;> cases h
  · unfold locateTrField at h
    split at h <;> cases h
  · cases h
    exact ⟨h1, h2, h3⟩
  · cases h

/-! ### Accesses -/

/-- A register reads the same whatever is pending. -/
theorem readReg_pending (s : State) (l : List HostEvent) (r : Reg) : readReg { s with pending := l } r = readReg s r := by
  cases r <;> rfl

/-- A read at an offset that reaches a register returns that register. -/
theorem readsAs_of_locate {s : State} {offset : Nat} {r : Reg} (h : locate s.bufBytes offset = some r) :
    readsAs s offset (readReg s r) := by
  intro rest
  rw [step_read]
  have ht : target { s with pending := rest } 32 offset = some r := h
  unfold busRead
  rw [ht]
  show Host.Outcome.next (State.respond (.data (readReg { s with pending := rest } r)) _) = _
  rw [readReg_pending]
  rfl

/-- A read whose width, alignment or offset is wrong is refused. -/
theorem refusesAccess_read {s : State} {width offset : Nat} (h : target s width offset = none) :
    refusesAccess s (.read width offset) := by
  intro rest
  rw [step_read]
  have ht : target { s with pending := rest } width offset = none := h
  unfold busRead
  rw [ht]
  rfl

/-- A write that reaches no register is refused. -/
theorem refusesAccess_write {s : State} {width offset : Nat} {w : Word} (h : target s width offset = none) :
    refusesAccess s (.write width offset w) := by
  intro rest
  rw [step_write]
  have ht : target { s with pending := rest } width offset = none := h
  unfold busWrite
  rw [ht]
  rfl

/-- A write that reaches a read-only register is refused. -/
theorem refusesAccess_readOnly {s : State} {offset : Nat} {w : Word} {r : Reg} (h : locate s.bufBytes offset = some r)
    (hc : r ≠ .cmd) (hr : writeReg s r w = none) : refusesAccess s (.write 32 offset w) := by
  intro rest
  rw [step_write]
  have ht : target { s with pending := rest } 32 offset = some r := h
  have hr' : writeReg { s with pending := rest } r w = none := by cases r <;> first | rfl | cases hr
  unfold busWrite
  rw [ht]
  cases r <;> first | exact absurd rfl hc | (simp only [hr']; rfl)

/-- A write that reaches a writable register other than CMD replaces it. -/
theorem writeGives_of_locate {s t : State} {offset : Nat} {w : Word} {r : Reg} (h : locate s.bufBytes offset = some r)
    (hc : r ≠ .cmd) (hr : writeReg s r w = some t) : writeGives s offset w t := by
  intro rest
  rw [step_write]
  have ht : target { s with pending := rest } 32 offset = some r := h
  have hr' : writeReg { s with pending := rest } r w = some { t with pending := rest } := by
    cases r <;> first | (cases hr; rfl) | cases hr
  unfold busWrite
  rw [ht]
  cases r <;> first | exact absurd rfl hc | (simp only [hr']; rfl)

/-- A write to CMD runs the word in the state in which the write is acknowledged. -/
theorem step_cmd (s : State) (w : Word) (rest : List HostEvent) :
    step { s with pending := .write 32 0x00 w :: rest } = execWord w { s with pending := rest, resp := .ack } := by
  rw [step_write]
  rfl

end Sys2Proof.Machine
end

