-- ==== Sys2Proof/Laws/Chain.lean ====
section
/-! SUPPORT. What a chain step does to the state, in one equation, and that it looks at nothing else. -/

namespace Sys2Proof.Machine

/-- The schedule of a core invocation with the standard parameters is the standard schedule. -/
theorem core_std_ks (x key : Block) (d : Dir) : (cipherCore x key d stdParams).ks = keySchedule key standardShifts := rfl

/-- Everything a chain step does. -/
theorem State.chainStep_eq (m : Mode) (dir : Dir) (s : State) :
    s.chainStep m dir = { s with
      dout := (chainResult m dir s.din s.chain (chainCore m dir s).out).1
      chain := (chainResult m dir s.din s.chain (chainCore m dir s).out).2
      blkcnt := s.blkcnt + 1#32
      ks := keySchedule s.key standardShifts
      tr := if s.blkcnt = 0#32 then (chainCore m dir s).tr else s.tr
      status := { s.status with ksvalid := true, trvalid := s.status.trvalid || s.blkcnt == 0#32 } } := by
  unfold State.chainStep
  by_cases h : s.blkcnt = 0#32
  · simp only [if_pos h]
    simp only [h, beq_self_eq_true, Bool.or_true]
    simp only [State.countBlock, State.storeTr, State.setChain, State.setDout, State.storeKs, h]
    rfl
  · simp only [if_neg h]
    have hb : (s.blkcnt == 0#32) = false := by simpa using h
    simp only [hb, Bool.or_false]
    rfl

/-- A chain step looks at the mode, DIN, CHAIN and KEY, and at BLKCNT only to know the first block. -/
theorem chainCore_congr {m : Mode} {dir : Dir} {s t : State} (hd : t.din = s.din) (hc : t.chain = s.chain)
    (hk : t.key = s.key) : chainCore m dir t = chainCore m dir s := by
  simp only [chainCore, hd, hc, hk]

@[simp] theorem State.chainStep_iv (m : Mode) (dir : Dir) (s : State) : (s.chainStep m dir).iv = s.iv := by
  rw [State.chainStep_eq]
@[simp] theorem State.chainStep_din (m : Mode) (dir : Dir) (s : State) : (s.chainStep m dir).din = s.din := by
  rw [State.chainStep_eq]
@[simp] theorem State.chainStep_key (m : Mode) (dir : Dir) (s : State) : (s.chainStep m dir).key = s.key := by
  rw [State.chainStep_eq]
@[simp] theorem State.chainStep_ks (m : Mode) (dir : Dir) (s : State) :
    (s.chainStep m dir).ks = keySchedule s.key standardShifts := by
  rw [State.chainStep_eq]
@[simp] theorem State.chainStep_blkcnt (m : Mode) (dir : Dir) (s : State) :
    (s.chainStep m dir).blkcnt = s.blkcnt + 1#32 := by
  rw [State.chainStep_eq]
@[simp] theorem State.chainStep_ibuf (m : Mode) (dir : Dir) (s : State) : (s.chainStep m dir).ibuf = s.ibuf := by
  rw [State.chainStep_eq]
@[simp] theorem State.chainStep_obuf (m : Mode) (dir : Dir) (s : State) : (s.chainStep m dir).obuf = s.obuf := by
  rw [State.chainStep_eq]
@[simp] theorem State.chainStep_bufBytes (m : Mode) (dir : Dir) (s : State) :
    (s.chainStep m dir).bufBytes = s.bufBytes := by
  rw [State.chainStep_eq]
@[simp] theorem State.chainStep_epoch (m : Mode) (dir : Dir) (s : State) : (s.chainStep m dir).epoch = s.epoch := by
  rw [State.chainStep_eq]
@[simp] theorem State.chainStep_mode (m : Mode) (dir : Dir) (s : State) :
    (s.chainStep m dir).status.mode = s.status.mode := by
  rw [State.chainStep_eq]
theorem State.chainStep_dout (m : Mode) (dir : Dir) (s : State) :
    (s.chainStep m dir).dout = (chainResult m dir s.din s.chain (chainCore m dir s).out).1 := by
  rw [State.chainStep_eq]
theorem State.chainStep_chain (m : Mode) (dir : Dir) (s : State) :
    (s.chainStep m dir).chain = (chainResult m dir s.din s.chain (chainCore m dir s).out).2 := by
  rw [State.chainStep_eq]

@[simp] theorem State.chainStep_ibufByte (m : Mode) (dir : Dir) (s : State) (a : Nat) :
    (s.chainStep m dir).ibufByte a = s.ibufByte a := by
  simp only [State.ibufByte, State.chainStep_ibuf, State.chainStep_epoch]

@[simp] theorem State.chainStep_obufByte (m : Mode) (dir : Dir) (s : State) (a : Nat) :
    (s.chainStep m dir).obufByte a = s.obufByte a := by
  simp only [State.obufByte, State.chainStep_obuf, State.chainStep_epoch]

/-- MINIT with a legal mode, in one equation. -/
theorem exec_minit (m : Mode) (s : State) : exec (.minit (modeNumber m)) s = .next ((s.startChain m).complete) := by
  cases m <;> rfl

theorem exec_mblke (s : State) : exec .mblke s = .next ((s.chainStep s.status.mode .enc).complete) := rfl

theorem exec_mblkd (s : State) : exec .mblkd s = .next ((s.chainStep s.status.mode .dec).complete) := rfl

@[simp] theorem modeOfBits_modeNumber (m : Mode) : modeOfBits (modeNumber m) = some m := by cases m <;> rfl

theorem modeOfBits_inv {b : BitVec 3} {m : Mode} (h : modeOfBits b = some m) : b = modeNumber m := by
  revert m b; decide

end Sys2Proof.Machine
end

