-- ==== Sys2Proof/Laws/Cipher.lean ====
section
/-! SUPPORT. What the primitives, the key schedule and the rounds of the core compute, entry by entry. -/

namespace Sys2Proof.Machine

/-! ### Primitives -/

/-- Position i + 1 of a permuted value is the position the table names. -/
theorem perm_getMsbD {N M : Nat} {T : List Nat} (hT : T.length = M) (v : BitVec N) {i : Nat} (hi : i < M) :
    (perm M T v).getMsbD i = pos v (T.getD i 0) := by
  subst hT
  unfold perm
  rw [BitVec.getMsbD_setWidth]
  simp [hi, List.getD_eq_getElem?_getD, BitVec.getMsbD_ofBoolListBE]

/-- Two values with the same bits, the most significant first. -/
theorem eq_of_getMsbD {N : Nat} {v w : BitVec N} (h : ∀ i, i < N → v.getMsbD i = w.getMsbD i) : v = w := by
  apply BitVec.eq_of_getMsbD_eq
  intro i hi
  exact h i hi

/-- A permutation undone by another. -/
theorem perm_perm_self {N : Nat} {T U : List Nat} (hT : T.length = N) (hU : U.length = N)
    (h : ∀ i, i < N → 1 ≤ U.getD i 0 ∧ U.getD i 0 ≤ N ∧ T.getD (U.getD i 0 - 1) 0 = i + 1) (v : BitVec N) :
    perm N U (perm N T v) = v := by
  apply eq_of_getMsbD
  intro i hi
  obtain ⟨h1, h2, h3⟩ := h i hi
  rw [perm_getMsbD hU _ hi]
  unfold pos
  rw [perm_getMsbD hT _ (by omega), h3]
  rfl

theorem perm_xor {N M : Nat} {T : List Nat} (hT : T.length = M) (v w : BitVec N) :
    perm M T (v ^^^ w) = perm M T v ^^^ perm M T w := by
  apply eq_of_getMsbD
  intro i hi
  simp only [BitVec.getMsbD_xor, perm_getMsbD hT _ hi, pos]

/-! ### Substitution -/

/-- A nibble above the last one of a concatenation is a nibble of what stands before. -/
theorem extract_append_above {n : Nat} (a : BitVec n) (b : BitVec 4) (k : Nat) :
    (a ++ b).extractLsb' (k + 4) 4 = a.extractLsb' k 4 := by
  refine BitVec.eq_of_getLsbD_eq fun i hi => ?_
  simp only [BitVec.getLsbD_extractLsb', BitVec.getLsbD_append, hi, decide_true, Bool.true_and]
  rw [if_neg (by omega), show k + 4 + i - 4 = k + i by omega]

/-- The last nibble of a concatenation. -/
theorem extract_append_last {n : Nat} (a : BitVec n) (b : BitVec 4) : (a ++ b).extractLsb' 0 4 = b := by
  refine BitVec.eq_of_getLsbD_eq fun i hi => ?_
  simp [BitVec.getLsbD_append, hi]

/-- Nibble j + 1 of the S-box stage is S-box j + 1 of group j + 1, the first the most significant (42_round_function R131). -/
theorem substitute_nibble (x : Subkey) (j : Fin 8) :
    (substitute x).extractLsb' (28 - 4 * j.val) 4 = sbox (j.val + 1) (x.extractLsb' (42 - 6 * j.val) 6) := by
  fin_cases j
  · exact (extract_append_above _ _ 24).trans ((extract_append_above _ _ 20).trans ((extract_append_above _ _ 16).trans
      ((extract_append_above _ _ 12).trans ((extract_append_above _ _ 8).trans ((extract_append_above _ _ 4).trans
        ((extract_append_above _ _ 0).trans BitVec.extractLsb'_eq_self))))))
  · exact (extract_append_above _ _ 20).trans ((extract_append_above _ _ 16).trans ((extract_append_above _ _ 12).trans
      ((extract_append_above _ _ 8).trans ((extract_append_above _ _ 4).trans ((extract_append_above _ _ 0).trans
        (extract_append_last _ _))))))
  · exact (extract_append_above _ _ 16).trans ((extract_append_above _ _ 12).trans ((extract_append_above _ _ 8).trans
      ((extract_append_above _ _ 4).trans ((extract_append_above _ _ 0).trans (extract_append_last _ _)))))
  · exact (extract_append_above _ _ 12).trans ((extract_append_above _ _ 8).trans ((extract_append_above _ _ 4).trans
      ((extract_append_above _ _ 0).trans (extract_append_last _ _))))
  · exact (extract_append_above _ _ 8).trans ((extract_append_above _ _ 4).trans ((extract_append_above _ _ 0).trans
      (extract_append_last _ _)))
  · exact (extract_append_above _ _ 4).trans ((extract_append_above _ _ 0).trans (extract_append_last _ _))
  · exact (extract_append_above _ _ 0).trans (extract_append_last _ _)
  · exact extract_append_last _ _

/-! ### Key schedule -/

@[simp] theorem keyRounds_length (sh : List (BitVec 2)) (c d : KeyHalf) : (keyRounds sh c d).length = sh.length := by
  induction sh generalizing c d with
  | nil => rfl
  | cons n rest ih => simp [keyRounds, ih]

/-- The record of round i + 1 of a bank is the record that the generator made in that round. -/
theorem keySchedule_recs (key : Block) (sh : List (BitVec 2)) (i : Fin 16) :
    (keySchedule key sh).recs[i] =
      (keyRounds sh (keySchedule key sh).c0 (keySchedule key sh).d0).getD i.val KsRecord.zero := by
  simp [keySchedule]

@[simp] theorem subkeys_length (b : KsBank) : (subkeys b).length = 16 := by simp [subkeys]

theorem subkeys_getElem (b : KsBank) {i : Nat} (h : i < 16) : (subkeys b)[i]? = some b.recs[i].k := by
  simp [subkeys, h]

@[simp] theorem subkeySequence_length (b : KsBank) (dir : Dir) (rev : Bool) : (subkeySequence b dir rev).length = 16 := by
  cases dir <;> cases rev <;> simp [subkeySequence]

/-- Decrypting uses the subkeys in the reverse of the order in which encrypting uses them. -/
theorem subkeySequence_dec (b : KsBank) (rev : Bool) :
    subkeySequence b .dec rev = (subkeySequence b .enc rev).reverse := by
  cases rev <;> simp [subkeySequence]

/-- REV_KEYS exchanges the two directions. -/
theorem subkeySequence_not (b : KsBank) (rev : Bool) : subkeySequence b .enc (!rev) = subkeySequence b .dec rev := by
  cases rev <;> simp [subkeySequence]

/-! ### Halves and rounds -/

@[simp] theorem Halves.swap_swap (h : Halves) : h.swap.swap = h := rfl

@[simp] theorem Halves.ofBlock_join (h : Halves) : Halves.ofBlock h.join = h := by
  obtain ⟨l, r⟩ := h
  simp only [Halves.ofBlock, Halves.join, hiWord, loWord, Halves.mk.injEq]
  constructor
  · show BitVec.extractLsb' 32 32 (l ++ r : BitVec (32 + 32)) = l
    exact BitVec.extractLsb'_append_eq_left
  · show BitVec.extractLsb' 0 32 (l ++ r : BitVec (32 + 32)) = r
    exact BitVec.extractLsb'_append_eq_right

@[simp] theorem Halves.join_ofBlock (b : Block) : (Halves.ofBlock b).join = b := by
  simp only [Halves.ofBlock, Halves.join, hiWord, loWord]
  exact BitVec.extractLsb'_append_extractLsb'_eq_extractLsb' (by rfl) |>.trans BitVec.extractLsb'_eq_self

@[simp] theorem runRounds_length (swapr i : Nat) (ks : List Subkey) (h : Halves) :
    (runRounds swapr i ks h).1.length = ks.length := by
  induction ks generalizing i h with
  | nil => rfl
  | cons k rest ih => simp [runRounds, ih]

/-- What the rounds make with subkey number `a`: a round on some halves, which are the first halves for the first subkey, whose result, exchanged after round `swapr`, is the halves of the next record, and the final halves after the last subkey. -/
theorem runRounds_getElem (swapr : Nat) {ks : List Subkey} {k : Subkey} {a i : Nat} {h : Halves} (hk : ks[a]? = some k) :
    ∃ x : Halves, (runRounds swapr i ks h).1[a]? = some (roundRecord x k) ∧ (a = 0 → x = h) ∧
      (∀ r, (runRounds swapr i ks h).1[a + 1]? = some r →
        ({ l := r.l, r := r.r } : Halves) = if swapr = i + a + 1 then (roundHalves x k).swap else roundHalves x k) ∧
      (a + 1 = ks.length →
        (runRounds swapr i ks h).2 = if swapr = i + a + 1 then (roundHalves x k).swap else roundHalves x k) := by
  induction ks generalizing i h a with
  | nil => simp at hk
  | cons k' rest ih =>
    cases a with
    | zero =>
      simp only [List.getElem?_cons_zero, Option.some.injEq] at hk
      subst hk
      refine ⟨h, by simp [runRounds], fun _ => rfl, fun r hr => ?_, fun hl => ?_⟩
      · simp only [runRounds, List.getElem?_cons_succ] at hr
        cases rest with
        | nil => simp [runRounds] at hr
        | cons k2 rest =>
          simp only [runRounds, List.getElem?_cons_zero, Option.some.injEq] at hr
          subst hr
          simp [roundRecord]
      · have : rest = [] := by simpa using hl
        subst this
        simp [runRounds]
    | succ a =>
      simp only [List.getElem?_cons_succ] at hk
      obtain ⟨x, h1, -, h3, h4⟩ := ih (i := i + 1)
        (h := if swapr = i + 1 then (roundHalves h k').swap else roundHalves h k') hk
      refine ⟨x, by simpa [runRounds] using h1, by simp, fun r hr => ?_, fun hl => ?_⟩
      · simp only [runRounds, List.getElem?_cons_succ] at hr
        rw [h3 r hr, show i + 1 + a + 1 = i + (a + 1) + 1 by omega]
      · simp only [runRounds]
        rw [h4 (by simpa using hl), show i + 1 + a + 1 = i + (a + 1) + 1 by omega]

/-- One more round at the end. -/
theorem runRounds_concat (swapr i : Nat) (ks : List Subkey) (k : Subkey) (h : Halves) :
    runRounds swapr i (ks ++ [k]) h =
      ((runRounds swapr i ks h).1 ++ [roundRecord (runRounds swapr i ks h).2 k],
        if swapr = i + ks.length + 1 then (roundHalves (runRounds swapr i ks h).2 k).swap
        else roundHalves (runRounds swapr i ks h).2 k) := by
  induction ks generalizing i h with
  | nil => simp [runRounds]
  | cons k' rest ih =>
    simp only [List.cons_append, runRounds, ih, List.length_cons, Prod.mk.injEq, List.cons_append, true_and]
    rw [show i + 1 + rest.length + 1 = i + (rest.length + 1) + 1 by omega]

end Sys2Proof.Machine
end

