-- ==== Sys2Proof/Laws/Message.lean ====
section
/-! SUPPORT. What the block loops of MSGENC and MSGDEC do: their frame, the blocks they store, and that they keep the buffers' form. -/

namespace Sys2Proof.Machine

/-! ### Padding -/

theorem padLen_pos (n : Nat) : 1 ≤ padLen n := by unfold padLen; omega

theorem padLen_le (n : Nat) : padLen n ≤ 8 := by unfold padLen; omega

theorem padBlocks_eq (n : Nat) : padBlocks n = n / 8 + 1 := by unfold padBlocks padLen; omega

theorem eight_padBlocks (n : Nat) : 8 * padBlocks n = n + padLen n := by unfold padBlocks padLen; omega

/-- A block of the padded payload depends on the bytes of IBUF alone. -/
theorem padBlock_congr {s t : State} (h : ∀ a, t.ibufByte a = s.ibufByte a) (n i : Nat) : padBlock t n i = padBlock s n i := by
  unfold padBlock padByte
  simp only [h]

/-! ### One pass of a loop -/

theorem encryptBlocks_succ (m : Mode) (o n k : Nat) (s : State) :
    encryptBlocks m o n (k + 1) s =
      (((encryptBlocks m o n k s).setDin (padBlock (encryptBlocks m o n k s) n k)).chainStep m .enc).obufWrite (o + 8 * k)
        (((encryptBlocks m o n k s).setDin (padBlock (encryptBlocks m o n k s) n k)).chainStep m .enc).dout := rfl

theorem decryptBlocks_succ (m : Mode) (o k : Nat) (s : State) :
    decryptBlocks m o (k + 1) s =
      (((decryptBlocks m o k s).setDin ((decryptBlocks m o k s).ibufRead (o + 8 * k) 8)).chainStep m .dec).obufWrite (8 * k)
        (((decryptBlocks m o k s).setDin ((decryptBlocks m o k s).ibufRead (o + 8 * k) 8)).chainStep m .dec).dout := rfl

/-! ### Frames -/

/-- Everything one pass of a loop can change. -/
theorem pass_frame (m : Mode) (dir : Dir) (a : Nat) (b : Block) (s : State) :
    ∃ dout chain tr obuf trvalid,
      (((s.setDin b).chainStep m dir).obufWrite a ((s.setDin b).chainStep m dir).dout) = { s with
        din := b, dout := dout, chain := chain, tr := tr, obuf := obuf
        blkcnt := s.blkcnt + 1#32
        ks := keySchedule s.key standardShifts
        status := { s.status with ksvalid := true, trvalid := trvalid } } := by
  refine ⟨((s.setDin b).chainStep m dir).dout, ((s.setDin b).chainStep m dir).chain,
    ((s.setDin b).chainStep m dir).tr,
    (((s.setDin b).chainStep m dir).obufWrite a ((s.setDin b).chainStep m dir).dout).obuf,
    ((s.setDin b).chainStep m dir).status.trvalid, ?_⟩
  rw [State.chainStep_eq]
  rfl

/-- Everything the encrypting loop can change. -/
theorem encryptBlocks_frame (m : Mode) (o n k : Nat) (s : State) :
    ∃ din dout chain tr obuf trvalid, encryptBlocks m o n k s = { s with
      din := din, dout := dout, chain := chain, tr := tr, obuf := obuf
      blkcnt := s.blkcnt + BitVec.ofNat 32 k
      ks := if k = 0 then s.ks else keySchedule s.key standardShifts
      status := { s.status with ksvalid := s.status.ksvalid || decide (k ≠ 0), trvalid := trvalid } } := by
  induction k with
  | zero =>
    refine ⟨s.din, s.dout, s.chain, s.tr, s.obuf, s.status.trvalid, ?_⟩
    simp [encryptBlocks]
  | succ k ih =>
    obtain ⟨din, dout, chain, tr, obuf, trvalid, ih⟩ := ih
    obtain ⟨dout', chain', tr', obuf', trvalid', hp⟩ := pass_frame m .enc (o + 8 * k) (padBlock (encryptBlocks m o n k s) n k) (encryptBlocks m o n k s)
    refine ⟨padBlock (encryptBlocks m o n k s) n k, dout', chain', tr', obuf', trvalid', ?_⟩
    rw [encryptBlocks_succ, hp]
    generalize padBlock (encryptBlocks m o n k s) n k = b
    rw [ih]
    simp [BitVec.ofNat_add, BitVec.add_assoc]

/-- Everything the decrypting loop can change. -/
theorem decryptBlocks_frame (m : Mode) (o k : Nat) (s : State) :
    ∃ din dout chain tr obuf trvalid, decryptBlocks m o k s = { s with
      din := din, dout := dout, chain := chain, tr := tr, obuf := obuf
      blkcnt := s.blkcnt + BitVec.ofNat 32 k
      ks := if k = 0 then s.ks else keySchedule s.key standardShifts
      status := { s.status with ksvalid := s.status.ksvalid || decide (k ≠ 0), trvalid := trvalid } } := by
  induction k with
  | zero =>
    refine ⟨s.din, s.dout, s.chain, s.tr, s.obuf, s.status.trvalid, ?_⟩
    simp [decryptBlocks]
  | succ k ih =>
    obtain ⟨din, dout, chain, tr, obuf, trvalid, ih⟩ := ih
    obtain ⟨dout', chain', tr', obuf', trvalid', hp⟩ := pass_frame m .dec (8 * k) ((decryptBlocks m o k s).ibufRead (o + 8 * k) 8) (decryptBlocks m o k s)
    refine ⟨(decryptBlocks m o k s).ibufRead (o + 8 * k) 8, dout', chain', tr', obuf', trvalid', ?_⟩
    rw [decryptBlocks_succ, hp]
    generalize (decryptBlocks m o k s).ibufRead (o + 8 * k) 8 = b
    rw [ih]
    simp [BitVec.ofNat_add, BitVec.add_assoc]

@[simp] theorem encryptBlocks_ibufByte (m : Mode) (o n k : Nat) (s : State) (a : Nat) :
    (encryptBlocks m o n k s).ibufByte a = s.ibufByte a := by
  obtain ⟨_, _, _, _, _, _, h⟩ := encryptBlocks_frame m o n k s
  rw [h]
  rfl

@[simp] theorem decryptBlocks_ibufByte (m : Mode) (o k : Nat) (s : State) (a : Nat) :
    (decryptBlocks m o k s).ibufByte a = s.ibufByte a := by
  obtain ⟨_, _, _, _, _, _, h⟩ := decryptBlocks_frame m o k s
  rw [h]
  rfl

@[simp] theorem decryptBlocks_ibufRead (m : Mode) (o k : Nat) (s : State) (a n : Nat) :
    (decryptBlocks m o k s).ibufRead a n = s.ibufRead a n :=
  bytesValue_congr fun _ _ => decryptBlocks_ibufByte m o k s _

@[simp] theorem encryptBlocks_key (m : Mode) (o n k : Nat) (s : State) : (encryptBlocks m o n k s).key = s.key := by
  obtain ⟨_, _, _, _, _, _, h⟩ := encryptBlocks_frame m o n k s
  rw [h]

@[simp] theorem decryptBlocks_key (m : Mode) (o k : Nat) (s : State) : (decryptBlocks m o k s).key = s.key := by
  obtain ⟨_, _, _, _, _, _, h⟩ := decryptBlocks_frame m o k s
  rw [h]

@[simp] theorem encryptBlocks_blkcnt (m : Mode) (o n k : Nat) (s : State) :
    (encryptBlocks m o n k s).blkcnt = s.blkcnt + BitVec.ofNat 32 k := by
  obtain ⟨_, _, _, _, _, _, h⟩ := encryptBlocks_frame m o n k s
  rw [h]

@[simp] theorem decryptBlocks_blkcnt (m : Mode) (o k : Nat) (s : State) :
    (decryptBlocks m o k s).blkcnt = s.blkcnt + BitVec.ofNat 32 k := by
  obtain ⟨_, _, _, _, _, _, h⟩ := decryptBlocks_frame m o k s
  rw [h]

/-- The padded payload's blocks are read from the payload as it was, whatever has been encrypted before. -/
theorem encryptBlocks_din (m : Mode) (o n k : Nat) (s : State) :
    (encryptBlocks m o n (k + 1) s).din = padBlock s n k := by
  rw [encryptBlocks_succ]
  simp only [State.obufWrite, State.chainStep_din, State.setDin]
  exact padBlock_congr (encryptBlocks_ibufByte m o n k s) n k

theorem decryptBlocks_din (m : Mode) (o k : Nat) (s : State) :
    (decryptBlocks m o (k + 1) s).din = s.ibufRead (o + 8 * k) 8 := by
  rw [decryptBlocks_succ]
  simp only [State.obufWrite, State.chainStep_din, State.setDin, decryptBlocks_ibufRead]

/-! ### Trace -/

/-- The trace of a chain that begins with a block is that block's. -/
theorem encryptBlocks_tr (m : Mode) (o n k : Nat) {s : State} (h0 : s.blkcnt = 0#32) (hk : k < 2 ^ 32) :
    (encryptBlocks m o n (k + 1) s).tr = (chainCore m .enc (s.setDin (padBlock s n 0))).tr ∧
      (encryptBlocks m o n (k + 1) s).status.trvalid = true := by
  induction k with
  | zero =>
    rw [encryptBlocks_succ, State.chainStep_eq]
    simp [encryptBlocks, State.obufWrite, State.setDin, h0]
  | succ k ih =>
    obtain ⟨ih1, ih2⟩ := ih (by omega)
    rw [encryptBlocks_succ, State.chainStep_eq]
    have hne : (encryptBlocks m o n (k + 1) s).blkcnt ≠ 0#32 := by
      rw [encryptBlocks_blkcnt, h0, ne_eq, ← BitVec.toNat_inj]
      simp
      omega
    simp only [State.obufWrite, State.setDin, if_neg hne, ih1, ih2, Bool.true_or, and_self]

theorem decryptBlocks_tr (m : Mode) (o k : Nat) {s : State} (h0 : s.blkcnt = 0#32) (hk : k < 2 ^ 32) :
    (decryptBlocks m o (k + 1) s).tr = (chainCore m .dec (s.setDin (s.ibufRead o 8))).tr ∧
      (decryptBlocks m o (k + 1) s).status.trvalid = true := by
  induction k with
  | zero =>
    rw [decryptBlocks_succ, State.chainStep_eq]
    simp [decryptBlocks, State.obufWrite, State.setDin, h0]
  | succ k ih =>
    obtain ⟨ih1, ih2⟩ := ih (by omega)
    rw [decryptBlocks_succ, State.chainStep_eq]
    have hne : (decryptBlocks m o (k + 1) s).blkcnt ≠ 0#32 := by
      rw [decryptBlocks_blkcnt, h0, ne_eq, ← BitVec.toNat_inj]
      simp
      omega
    simp only [State.obufWrite, State.setDin, if_neg hne, ih1, ih2, Bool.true_or, and_self]

/-! ### OBUF -/

/-- A byte outside the blocks stored so far is as it was. -/
theorem encryptBlocks_obufByte_other (m : Mode) (o n k : Nat) (s : State) {a : Nat} (h : a < o ∨ o + 8 * k ≤ a) :
    (encryptBlocks m o n k s).obufByte a = s.obufByte a := by
  induction k with
  | zero => rfl
  | succ k ih =>
    rw [encryptBlocks_succ, State.obufByte_obufWrite_other _ _ (by omega), State.chainStep_obufByte]
    exact ih (by omega)

theorem decryptBlocks_obufByte_other (m : Mode) (o k : Nat) (s : State) {a : Nat} (h : 8 * k ≤ a) :
    (decryptBlocks m o k s).obufByte a = s.obufByte a := by
  induction k with
  | zero => rfl
  | succ k ih =>
    rw [decryptBlocks_succ, State.obufByte_obufWrite_other _ _ (by omega), State.chainStep_obufByte]
    exact ih (by omega)

/-- Block `i` in OBUF is what the loop's pass `i` put in DOUT. -/
theorem encryptBlocks_obufRead (m : Mode) (o n : Nat) (s : State) {i k : Nat} (h : i < k) :
    (encryptBlocks m o n k s).obufRead (o + 8 * i) 8 = (encryptBlocks m o n (i + 1) s).dout := by
  induction k with
  | zero => omega
  | succ k ih =>
    by_cases hi : i = k
    · subst hi
      rw [encryptBlocks_succ, State.obufRead_obufWrite]
      rfl
    · rw [encryptBlocks_succ, State.obufRead_obufWrite_other _ _ (by omega), ← ih (by omega)]
      exact bytesValue_congr fun j _ => State.chainStep_obufByte m .enc _ _

theorem decryptBlocks_obufRead (m : Mode) (o : Nat) (s : State) {i k : Nat} (h : i < k) :
    (decryptBlocks m o k s).obufRead (8 * i) 8 = (decryptBlocks m o (i + 1) s).dout := by
  induction k with
  | zero => omega
  | succ k ih =>
    by_cases hi : i = k
    · subst hi
      rw [decryptBlocks_succ, State.obufRead_obufWrite]
      rfl
    · rw [decryptBlocks_succ, State.obufRead_obufWrite_other _ _ (by omega), ← ih (by omega)]
      exact bytesValue_congr fun j _ => State.chainStep_obufByte m .dec _ _

/-- The loops keep OBUF in canonical form and inside BUF_BYTES. -/
theorem encryptBlocks_obuf_wf (m : Mode) (o n k : Nat) {s : State} (h : s.obuf.wf) : (encryptBlocks m o n k s).obuf.wf := by
  induction k with
  | zero => exact h
  | succ k ih =>
    rw [encryptBlocks_succ]
    refine Memory.writeBytes_wf ?_ _ _ _
    rw [State.chainStep_obuf]
    exact ih

theorem encryptBlocks_obuf_within (m : Mode) (o n k : Nat) {s : State} {bound : Nat} (h : s.obuf.within bound)
    (hb : o + 8 * k ≤ bound) : (encryptBlocks m o n k s).obuf.within bound := by
  induction k with
  | zero => exact h
  | succ k ih =>
    rw [encryptBlocks_succ]
    refine Memory.writeBytes_within ?_ (by omega) _
    rw [State.chainStep_obuf]
    exact ih (by omega)

theorem decryptBlocks_obuf_wf (m : Mode) (o k : Nat) {s : State} (h : s.obuf.wf) : (decryptBlocks m o k s).obuf.wf := by
  induction k with
  | zero => exact h
  | succ k ih =>
    rw [decryptBlocks_succ]
    refine Memory.writeBytes_wf ?_ _ _ _
    rw [State.chainStep_obuf]
    exact ih

theorem decryptBlocks_obuf_within (m : Mode) (o k : Nat) {s : State} {bound : Nat} (h : s.obuf.within bound)
    (hb : 8 * k ≤ bound) : (decryptBlocks m o k s).obuf.within bound := by
  induction k with
  | zero => exact h
  | succ k ih =>
    rw [decryptBlocks_succ]
    refine Memory.writeBytes_within ?_ (by omega) _
    rw [State.chainStep_obuf]
    exact ih (by omega)

end Sys2Proof.Machine
end

