-- ==== Sys2Proof/Laws/Commands.lean ====
section
/-! SUPPORT. The commands case by case, and that no chain or message command looks at VARIANT, ALTSHIFT, what is pending or the bus's answer. -/

namespace Sys2Proof.Machine

/-! ### The two outcomes of the commands that can fail -/

theorem exec_encblk_cases (s : State) :
    (variantParams s = none ∧ exec .encblk s = .next (s.fail .inputFormat)) ∨
    (∃ vp, variantParams s = some vp ∧ exec .encblk s = .next (s.runBlock .enc vp)) := by
  show (_ ∧ execEncblk s = _) ∨ (∃ vp, _ ∧ execEncblk s = _)
  unfold execEncblk
  cases variantParams s with
  | none => exact .inl ⟨rfl, rfl⟩
  | some vp => exact .inr ⟨vp, rfl, rfl⟩

theorem exec_decblk_cases (s : State) :
    (variantParams s = none ∧ exec .decblk s = .next (s.fail .inputFormat)) ∨
    (∃ vp, variantParams s = some vp ∧ exec .decblk s = .next (s.runBlock .dec vp)) := by
  show (_ ∧ execDecblk s = _) ∨ (∃ vp, _ ∧ execDecblk s = _)
  unfold execDecblk
  cases variantParams s with
  | none => exact .inl ⟨rfl, rfl⟩
  | some vp => exact .inr ⟨vp, rfl, rfl⟩

theorem exec_minit_cases (mode : BitVec 3) (s : State) :
    (modeOfBits mode = none ∧ exec (.minit mode) s = .next (s.fail .illegalCommand)) ∨
    (∃ m, modeOfBits mode = some m ∧ exec (.minit mode) s = .next ((s.startChain m).complete)) := by
  show (_ ∧ execMinit mode s = _) ∨ (∃ m, _ ∧ execMinit mode s = _)
  unfold execMinit
  cases modeOfBits mode with
  | none => exact .inl ⟨rfl, rfl⟩
  | some m => exact .inr ⟨m, rfl, rfl⟩

theorem exec_msgenc_cases (mode : BitVec 3) (riv : Bool) (s : State) :
    (modeOfBits mode = none ∧ exec (.msgenc mode riv) s = .next (s.fail .illegalCommand)) ∨
    (∃ m, modeOfBits mode = some m ∧ s.bufBytes < s.ilen.toNat + 16 ∧
      exec (.msgenc mode riv) s = .next (s.fail .inputFormat)) ∨
    (∃ m, modeOfBits mode = some m ∧ s.ilen.toNat + 16 ≤ s.bufBytes ∧
      exec (.msgenc mode riv) s = .next (s.encryptMessage m riv)) := by
  show (_ ∧ execMsgenc mode riv s = _) ∨ (∃ m, _ ∧ _ ∧ execMsgenc mode riv s = _) ∨
    (∃ m, _ ∧ _ ∧ execMsgenc mode riv s = _)
  unfold execMsgenc
  cases modeOfBits mode with
  | none => exact .inl ⟨rfl, rfl⟩
  | some m =>
    by_cases h : s.bufBytes < s.ilen.toNat + 16
    · exact .inr (.inl ⟨m, rfl, h, by simp only [if_pos h]⟩)
    · exact .inr (.inr ⟨m, rfl, by omega, by simp only [if_neg h]⟩)

theorem exec_msgdec_cases (mode : BitVec 3) (s : State) :
    (modeOfBits mode = none ∧ exec (.msgdec mode) s = .next (s.fail .illegalCommand)) ∨
    (∃ m c, modeOfBits mode = some m ∧ c ≠ ErrCode.completed ∧ exec (.msgdec mode) s = .next (s.fail c)) ∨
    (∃ m, modeOfBits mode = some m ∧ s.ilen.toNat ≤ s.bufBytes ∧ (m = .ecb ∨ 16 ≤ s.ilen.toNat) ∧
      (s.ilen.toNat - bodyOffset m) % 8 = 0 ∧
      exec (.msgdec mode) s = .next (s.decryptMessage m (s.ilen.toNat - bodyOffset m))) := by
  show (_ ∧ execMsgdec mode s = _) ∨ (∃ m c, _ ∧ _ ∧ execMsgdec mode s = _) ∨
    (∃ m, _ ∧ _ ∧ _ ∧ _ ∧ execMsgdec mode s = _)
  unfold execMsgdec
  cases modeOfBits mode with
  | none => exact .inl ⟨rfl, rfl⟩
  | some m =>
    by_cases h1 : s.bufBytes < s.ilen.toNat
    · exact .inr (.inl ⟨m, .inputFormat, rfl, by decide, by simp only [if_pos h1]⟩)
    by_cases h2 : m ≠ .ecb ∧ s.ilen.toNat < 16
    · exact .inr (.inl ⟨m, .missingIv, rfl, by decide, by simp only [if_neg h1, if_pos h2]⟩)
    by_cases h3 : (s.ilen.toNat - bodyOffset m) % 8 ≠ 0
    · exact .inr (.inl ⟨m, .length, rfl, by decide, by simp only [if_neg h1, if_neg h2, if_pos h3]⟩)
    · refine .inr (.inr ⟨m, rfl, by omega, ?_, by omega, by simp only [if_neg h1, if_neg h2, if_neg h3]⟩)
      by_cases hm : m = .ecb
      · exact .inl hm
      · right
        by_contra hlt
        exact h2 ⟨hm, by omega⟩

/-! ### What the chain and message commands never look at -/

/-- `s` with other values of the fields that no chain or message command looks at. -/
def State.withUnseen (v : Variant) (a : Word) (p : List HostEvent) (r : Response) (s : State) : State :=
  { s with variant := v, altshift := a, pending := p, resp := r }

theorem State.chainStep_withUnseen (m : Mode) (dir : Dir) (v : Variant) (a : Word) (p : List HostEvent) (r : Response)
    (s : State) : (s.withUnseen v a p r).chainStep m dir = (s.chainStep m dir).withUnseen v a p r := by
  rw [State.chainStep_eq, State.chainStep_eq]
  rfl

theorem encryptBlocks_withUnseen (m : Mode) (o n k : Nat) (v : Variant) (a : Word) (p : List HostEvent) (r : Response)
    (s : State) : encryptBlocks m o n k (s.withUnseen v a p r) = (encryptBlocks m o n k s).withUnseen v a p r := by
  induction k with
  | zero => rfl
  | succ k ih =>
    rw [encryptBlocks_succ, encryptBlocks_succ, ih]
    generalize encryptBlocks m o n k s = t
    have h : (t.withUnseen v a p r).setDin (padBlock (t.withUnseen v a p r) n k) =
        (t.setDin (padBlock t n k)).withUnseen v a p r := rfl
    rw [h, State.chainStep_withUnseen]
    rfl

theorem decryptBlocks_withUnseen (m : Mode) (o k : Nat) (v : Variant) (a : Word) (p : List HostEvent) (r : Response)
    (s : State) : decryptBlocks m o k (s.withUnseen v a p r) = (decryptBlocks m o k s).withUnseen v a p r := by
  induction k with
  | zero => rfl
  | succ k ih =>
    rw [decryptBlocks_succ, decryptBlocks_succ, ih]
    generalize decryptBlocks m o k s = t
    have h : (t.withUnseen v a p r).setDin ((t.withUnseen v a p r).ibufRead (o + 8 * k) 8) =
        (t.setDin (t.ibufRead (o + 8 * k) 8)).withUnseen v a p r := rfl
    rw [h, State.chainStep_withUnseen]
    rfl

theorem State.encryptMessage_withUnseen (m : Mode) (riv : Bool) (v : Variant) (a : Word) (p : List HostEvent)
    (r : Response) (s : State) :
    (s.withUnseen v a p r).encryptMessage m riv = (s.encryptMessage m riv).withUnseen v a p r := by
  have h : ((((s.withUnseen v a p r).chooseIv m riv).startChain m).complete).prependIv m =
      ((((s.chooseIv m riv).startChain m).complete).prependIv m).withUnseen v a p r := by
    unfold State.chooseIv State.prependIv
    split <;> split <;> rfl
  have hn : (s.withUnseen v a p r).ilen = s.ilen := rfl
  simp only [State.encryptMessage, h, hn, encryptBlocks_withUnseen]
  rfl

theorem State.decryptMessage_withUnseen (m : Mode) (len : Nat) (v : Variant) (a : Word) (p : List HostEvent)
    (r : Response) (s : State) :
    (s.withUnseen v a p r).decryptMessage m len = (s.decryptMessage m len).withUnseen v a p r := by
  have h : (((s.withUnseen v a p r).splitIv m).startChain m).complete =
      (((s.splitIv m).startChain m).complete).withUnseen v a p r := by
    unfold State.splitIv
    split <;> rfl
  simp only [State.decryptMessage, h, decryptBlocks_withUnseen]
  rfl

/-- A whole-message command leaves alone what it does not look at. -/
theorem State.encryptMessage_unseen (m : Mode) (riv : Bool) (s : State) :
    s.encryptMessage m riv = (s.encryptMessage m riv).withUnseen s.variant s.altshift s.pending s.resp := by
  conv_lhs => rw [show s = s.withUnseen s.variant s.altshift s.pending s.resp from rfl]
  rw [State.encryptMessage_withUnseen]

theorem State.decryptMessage_unseen (m : Mode) (len : Nat) (s : State) :
    s.decryptMessage m len = (s.decryptMessage m len).withUnseen s.variant s.altshift s.pending s.resp := by
  conv_lhs => rw [show s = s.withUnseen s.variant s.altshift s.pending s.resp from rfl]
  rw [State.decryptMessage_withUnseen]

/-- No command looks at what is pending or at the bus's answer, or changes them. -/
theorem exec_pending_resp {i : Instr} {s t : State} (h : exec i s = .next t) (p : List HostEvent) (r : Response) :
    exec i { s with pending := p, resp := r } = .next { t with pending := p, resp := r } := by
  have hs : ({ s with pending := p, resp := r } : State) = s.withUnseen s.variant s.altshift p r := rfl
  cases i with
  | nop => cases h; rfl
  | keyexp => cases h; rfl
  | ivgen => cases h; rfl
  | clrerr => cases h; rfl
  | sreset => cases h; rfl
  | encblk =>
    rcases exec_encblk_cases s with ⟨hv, he⟩ | ⟨vp, hv, he⟩
    · rw [h] at he
      cases he
      show execEncblk _ = _
      unfold execEncblk
      rw [show variantParams { s with pending := p, resp := r } = none from hv]
      rfl
    · rw [h] at he
      cases he
      show execEncblk _ = _
      unfold execEncblk
      rw [show variantParams { s with pending := p, resp := r } = some vp from hv]
      rfl
  | decblk =>
    rcases exec_decblk_cases s with ⟨hv, he⟩ | ⟨vp, hv, he⟩
    · rw [h] at he
      cases he
      show execDecblk _ = _
      unfold execDecblk
      rw [show variantParams { s with pending := p, resp := r } = none from hv]
      rfl
    · rw [h] at he
      cases he
      show execDecblk _ = _
      unfold execDecblk
      rw [show variantParams { s with pending := p, resp := r } = some vp from hv]
      rfl
  | minit mode =>
    change execMinit mode s = _ at h
    show execMinit mode _ = _
    unfold execMinit at h ⊢
    cases hm : modeOfBits mode <;> simp only [hm] at h ⊢ <;> cases h <;> rfl
  | mblke =>
    cases h
    rw [hs]
    show Host.Outcome.next (((s.withUnseen _ _ p r).chainStep s.status.mode .enc).complete) = _
    rw [State.chainStep_withUnseen, State.chainStep_eq]
    rfl
  | mblkd =>
    cases h
    rw [hs]
    show Host.Outcome.next (((s.withUnseen _ _ p r).chainStep s.status.mode .dec).complete) = _
    rw [State.chainStep_withUnseen, State.chainStep_eq]
    rfl
  | msgenc mode riv =>
    change execMsgenc mode riv s = _ at h
    show execMsgenc mode riv _ = _
    unfold execMsgenc at h ⊢
    cases hm : modeOfBits mode with
    | none =>
      simp only [hm] at h ⊢
      cases h
      rfl
    | some m =>
      simp only [hm] at h ⊢
      by_cases h1 : s.bufBytes < s.ilen.toNat + 16
      · simp only [if_pos h1] at h ⊢
        cases h
        rfl
      · simp only [if_neg h1] at h ⊢
        cases h
        rw [hs, State.encryptMessage_withUnseen]
        conv_rhs => rw [State.encryptMessage_unseen]
        rfl
  | msgdec mode =>
    change execMsgdec mode s = _ at h
    show execMsgdec mode _ = _
    unfold execMsgdec at h ⊢
    cases hm : modeOfBits mode with
    | none =>
      simp only [hm] at h ⊢
      cases h
      rfl
    | some m =>
      simp only [hm] at h ⊢
      by_cases h1 : s.bufBytes < s.ilen.toNat
      · simp only [if_pos h1] at h ⊢
        cases h
        rfl
      by_cases h2 : m ≠ .ecb ∧ s.ilen.toNat < 16
      · simp only [if_neg h1, if_pos h2] at h ⊢
        cases h
        rfl
      by_cases h3 : (s.ilen.toNat - bodyOffset m) % 8 ≠ 0
      · simp only [if_neg h1, if_neg h2, if_pos h3] at h ⊢
        cases h
        rfl
      · simp only [if_neg h1, if_neg h2, if_neg h3] at h ⊢
        cases h
        rw [hs, State.decryptMessage_withUnseen]
        conv_rhs => rw [State.decryptMessage_unseen]
        rfl

end Sys2Proof.Machine
end

