-- ==== Sys2Proof/Laws/PerInstr.lean ====
section
/-! SUPPORT. Statements about every command as syntax, one lemma per constructor. -/

namespace Sys2Proof.Laws.FieldPlacement

/-- The encoder puts a command's fields where 30_encoding R71 says: OPC in bits 7:0, MODE in bits 10:8, RIV in bit 11, zero above. -/
def Statement (i : Instr) : Prop :=
  opcField (encode i) = i.opc ∧ modeField (encode i) = i.modeBits ∧ rivField (encode i) = i.rivBit ∧
    (encode i).extractLsb' 12 20 = 0#20

theorem nop : Statement .nop := by unfold Statement; decide
theorem keyexp : Statement .keyexp := by unfold Statement; decide
theorem encblk : Statement .encblk := by unfold Statement; decide
theorem decblk : Statement .decblk := by unfold Statement; decide
theorem minit (mode : BitVec 3) : Statement (.minit mode) := by unfold Statement; revert mode; decide
theorem mblke : Statement .mblke := by unfold Statement; decide
theorem mblkd : Statement .mblkd := by unfold Statement; decide
theorem msgenc (mode : BitVec 3) (riv : Bool) : Statement (.msgenc mode riv) := by
  unfold Statement; revert mode riv; decide
theorem msgdec (mode : BitVec 3) : Statement (.msgdec mode) := by unfold Statement; revert mode; decide
theorem ivgen : Statement .ivgen := by unfold Statement; decide
theorem clrerr : Statement .clrerr := by unfold Statement; decide
theorem sreset : Statement .sreset := by unfold Statement; decide

end Sys2Proof.Laws.FieldPlacement
end

