-- ==== Sys2Proof/Tests/Slice0.lean ====
section
/-! SUPPORT. The model's own tests: well-formedness, command words written out from the encoding, one step per test with the spec's vectors, and a witness for the hypotheses of every statement. -/

namespace Sys2Proof.Tests

open Sys2Proof Sys2Proof.Machine

/-- The next state of an outcome, if it is one. -/
def stateOf (o : Host.Outcome State Fault Refusal) : Option State :=
  match o with
  | .next t => some t
  | .fault _ => none
  | .refused _ => none

/-- A state with a key and a block in DIN, everything else as after reset. -/
def blockState (key din : Block) : State := { State.reset with key := key, din := din }

/-- A state with a key, an IV, `n` in ILEN and IBUF listing the bytes `bs` from offset 0, everything else as after reset. -/
def messageState (key iv : Block) (n : Nat) (bs : List Byte) : State :=
  { State.reset with key := key, iv := iv, ilen := BitVec.ofNat 32 n, ibuf := bs.zipIdx.map fun p => (p.2, p.1) }

/-- A STATUS with an error on record, of an MSGDEC that found its input too short (47_system_commands R220). -/
def failedStatus : Status := { Status.zero with err := .missingIv, errs := true }

/-! ### WellFormed refuses ill-formed terms (30_encoding R73) -/

theorem test_wellFormed_minit_mode4 : (Instr.minit 4#3).WellFormed := by decide
theorem test_wellFormed_refuses_minit_mode5 : ¬ (Instr.minit 5#3).WellFormed := by decide
theorem test_wellFormed_refuses_msgenc_mode6 : ¬ (Instr.msgenc 6#3 true).WellFormed := by decide
theorem test_wellFormed_refuses_msgdec_mode7 : ¬ (Instr.msgdec 7#3).WellFormed := by decide

/-! ### Words written out from the encodings of 30_encoding R74 -/

theorem test_decode_nop : decode 0b00000000000000000000000000000000#32 = .ok .nop := by decide
theorem test_decode_keyexp : decode 0b00000000000000000000000000000001#32 = .ok .keyexp := by decide
theorem test_decode_encblk : decode 0b00000000000000000000000000000010#32 = .ok .encblk := by decide
theorem test_decode_decblk : decode 0b00000000000000000000000000000011#32 = .ok .decblk := by decide
theorem test_decode_minit : decode 0b00000000000000000000001100000100#32 = .ok (.minit 3#3) := by decide
theorem test_decode_mblke : decode 0b00000000000000000000000000000101#32 = .ok .mblke := by decide
theorem test_decode_mblkd : decode 0b00000000000000000000000000000110#32 = .ok .mblkd := by decide
theorem test_decode_msgenc : decode 0b00000000000000000000101000000111#32 = .ok (.msgenc 2#3 true) := by decide
theorem test_decode_msgenc_stored_iv : decode 0b00000000000000000000000100000111#32 = .ok (.msgenc 1#3 false) := by decide
theorem test_decode_msgdec : decode 0b00000000000000000000010000001000#32 = .ok (.msgdec 4#3) := by decide
theorem test_decode_ivgen : decode 0b00000000000000000000000000001001#32 = .ok .ivgen := by decide
theorem test_decode_clrerr : decode 0b00000000000000000000000000001010#32 = .ok .clrerr := by decide
theorem test_decode_sreset : decode 0b00000000000000000000000000001011#32 = .ok .sreset := by decide

/-- Bit 11 is RIV in MSGENC alone: in MSGDEC it must be zero (30_encoding R75). -/
theorem test_decode_refuses_msgdec_bit11 : decode 0b00000000000000000000101000001000#32 = .error .nonzeroReservedBits := by
  decide

/-- 30_encoding R76: MSGENC CFB with RIV. -/
theorem test_encode_msgenc : encode (.msgenc 2#3 true) = 0x00000A07#32 := by decide

theorem test_tableWord_reads_low_bits : decodeTableWord 32 0x404 = some (.minit 4#3) := by decide
theorem test_tableWord_refuses_illegal : decodeTableWord 32 0x504 = none := by decide

/-! ### Registers and the bus -/

/-- 47_system_commands R223's example: ERR 5, ERRS 1, KSVALID 1, MODE 1 is the word 0x14D. -/
theorem test_statusWord_layout :
    statusWord { err := .illegalCommand, errs := true, padinv := false, trvalid := false, ksvalid := true, mode := .cbc } =
      0x0000014D#32 := by decide

/-- 46_variant R212's last mixed setting: all five flags, NR = 3, SWAPR = 2. -/
theorem test_variantWord_layout :
    variantOfWord 0x0002031F#32 =
      { skipIp := true, skipFp := true, skipSwap := true, revKeys := true, altShift := true, nr := 3#5, swapr := 2#5 } := by
  decide

/-- The second word of IBUF holds the bytes at offsets 4 to 7, the first of them in bits 31:24 (20_memory R51, R52). -/
theorem test_ibuf_word_bytes :
    (stateOf (step { State.reset with pending := [.write 32 0x10004 0x61626364#32] })).map (fun t => (t.ibuf, t.resp)) =
      some ([(4, 0x61#8), (5, 0x62#8), (6, 0x63#8), (7, 0x64#8)], .ack) := by decide

/-- A write to the read-only STATUS, a halfword access and an access past BUF_BYTES are refused (20_memory R56). -/
theorem test_refused_accesses :
    [HostEvent.write 32 0x04 0#32, .read 16 0x20, .read 32 0x11000].map
      (fun e => stateOf (step { State.reset with pending := [e] })) =
      List.replicate 3 (some { State.reset with resp := .busError }) := by decide

/-! ### Tables and rounds -/

/-- 42_round_function R135 and 95_test_vectors 2.1: the first round of the canonical vector. -/
theorem test_first_round :
    roundRecord { l := 0xCC00CCFF#32, r := 0xF0AAF0AA#32 } 0x1B02EFFC7072#48 =
      { l := 0xCC00CCFF#32, r := 0xF0AAF0AA#32, k := 0x1B02EFFC7072#48, e := 0x7A15557A1555#48, x := 0x6117BA866527#48,
        s := 0x5C82B597#32, p := 0x234AA9BB#32, blk := 0xF0AAF0AAEF4A6544#64 } := by decide +kernel

/-- 40_tables_primitives R100: the first character is the most significant nibble. -/
theorem test_hex_notation :
    hex 0x89ABCDEF#32 = ['8', '9', 'a', 'b', 'c', 'd', 'e', 'f'] ∧
      unhex 32 ['8', '9', 'a', 'b', 'c', 'd', 'e', 'f'] = 0x89ABCDEF#32 := by decide

/-- 44_mode_chain R171: the increment carries from byte to byte, and wraps. -/
theorem test_increment_carries :
    incrementBytes [0xFF#8, 0xFF#8, 0x01#8] = [0x00#8, 0x00#8, 0x02#8] ∧ incrementBytes [0xFF#8] = [0x00#8] := by decide

/-! ### One command each -/

/-- 47_system_commands R220's example: STATUS 0x0B becomes 0x08. -/
theorem test_nop_keeps_errs :
    (stateOf (exec .nop { State.reset with status := failedStatus })).map (fun t => statusWord t.status) =
      some 0x00000008#32 := by decide

/-- 41_key_schedule R122's worked example. -/
theorem test_keyexp_schedule :
    (stateOf (exec .keyexp (blockState 0x133457799BBCDFF1#64 0#64))).map
      (fun t => (t.ks.c0, t.ks.d0, t.ks.recs[0].k, t.ks.recs[15].k, t.status.ksvalid)) =
      some (0xF0CCAAF#28, 0x556678F#28, 0x1B02EFFC7072#48, 0xCB3D8B0E17F5#48, true) := by decide +kernel

/-- 43_block_cipher R143's worked example, the canonical vector of 95_test_vectors 1.1. -/
theorem test_encblk_canonical :
    (stateOf (exec .encblk (blockState 0x133457799BBCDFF1#64 0x0123456789ABCDEF#64))).map
      (fun t => (t.dout, t.tr.ip, t.tr.len, t.tr.dir)) =
      some (0x85E813540F0AB405#64, 0xCC00CCFFF0AAF0AA#64, 16#5, .enc) := by decide +kernel

/-- 46_variant R212, case A: all five flags, three rounds, halves exchanged after round 2, every shift 1. -/
theorem test_encblk_variant :
    (stateOf (exec .encblk { blockState 0x133457799BBCDFF1#64 0x0123456789ABCDEF#64 with
      variant := variantOfWord 0x0002031F#32, altshift := 0x55555555#32 })).map (fun t => (t.dout, t.tr.len)) =
      some (0x12BE2C6506DFB80D#64, 3#5) := by decide +kernel

/-- 43_block_cipher R144's worked example, the classroom vector of 95_test_vectors 1.2. -/
theorem test_decblk_classroom :
    (stateOf (exec .decblk (blockState 0x0F1571C947D9E859#64 0xDA02CE3A89ECAC3B#64))).map (fun t => (t.dout, t.tr.dir)) =
      some (0x02468ACEECA86420#64, .dec) := by decide +kernel

/-- 46_variant R212: SWAPR = 17 is InputFormatError, and nothing but the error record changes. -/
theorem test_decblk_swapr17 :
    stateOf (exec .decblk { State.reset with variant := variantOfWord 0x00110000#32 }) =
      some { State.reset with variant := variantOfWord 0x00110000#32,
                              status := { Status.zero with err := .inputFormat, errs := true } } := by decide

/-- 44_mode_chain R161's worked example. -/
theorem test_minit_cbc :
    (stateOf (exec (.minit 1#3) { State.reset with iv := 0x1234567890ABCDEF#64, blkcnt := 7#32 })).map
      (fun t => (t.chain, statusWord t.status, t.blkcnt)) = some (0x1234567890ABCDEF#64, 0x00000100#32, 0#32) := by decide

/-- 44_mode_chain R164's worked example: CBC, the first block. -/
theorem test_mblke_cbc :
    (stateOf (exec .mblke { blockState 0x0123456789ABCDEF#64 0x4E6F772069732074#64 with
      chain := 0x1234567890ABCDEF#64, status := { Status.zero with mode := .cbc } })).map
      (fun t => (t.dout, t.chain, t.blkcnt, t.tr.inp)) =
      some (0xE5C7CDDE872BF27C#64, 0xE5C7CDDE872BF27C#64, 1#32, 0x5C5B2158F9D8ED9B#64) := by decide +kernel

/-- 44_mode_chain R165 and R173: CFB decryption of the first block; the chain takes the ciphertext, the core ran forwards. -/
theorem test_mblkd_cfb :
    (stateOf (exec .mblkd { blockState 0x0123456789ABCDEF#64 0xF3096249C7F46E51#64 with
      chain := 0x1234567890ABCDEF#64, status := { Status.zero with mode := .cfb } })).map
      (fun t => (t.dout, t.chain, t.tr.dir)) =
      some (0x4E6F772069732074#64, 0xF3096249C7F46E51#64, .enc) := by decide +kernel

/-- 45_mode_message R183's worked example: the payload "abc" in CBC. -/
theorem test_msgenc_cbc_abc :
    (stateOf (exec (.msgenc 1#3 false)
      (messageState 0x133457799BBCDFF1#64 0x1234567890ABCDEF#64 3 [0x61#8, 0x62#8, 0x63#8]))).map
      (fun t => (t.olen, t.obufRead 0 8, t.obufRead 8 8, t.tr.inp, t.blkcnt)) =
      some (16#32, 0x1234567890ABCDEF#64, 0xA6DF41DD72E86C1E#64, 0x7356357D95AEC8EA#64, 1#32) := by decide +kernel

/-- 45_mode_message R193: 4081 bytes are one too many, in ECB too. -/
theorem test_msgenc_too_long :
    (stateOf (exec (.msgenc 0#3 false) (messageState 0#64 0#64 4081 []))).map (fun t => (statusWord t.status, t.olen)) =
      some (0x00000009#32, 0#32) := by decide

/-- 45_mode_message R191: the tail `02 02` is taken off. -/
theorem test_msgdec_unpads :
    (stateOf (exec (.msgdec 0#3) (messageState 0x133457799BBCDFF1#64 0#64 8
      [0x1C#8, 0x66#8, 0x25#8, 0x79#8, 0x49#8, 0xD8#8, 0xB3#8, 0x7D#8]))).map
      (fun t => (t.olen, t.obufRead 0 8, t.status.padinv)) =
      some (6#32, 0x1122334455660202#64, false) := by decide +kernel

/-- 60_exceptions R239's example: MSGDEC CBC with ILEN 5 meets two conditions and reports MissingIvError. -/
theorem test_msgdec_missing_iv_first :
    (stateOf (exec (.msgdec 1#3) (messageState 0#64 0#64 5 []))).map (fun t => statusWord t.status) =
      some 0x0000000B#32 := by decide

/-- 47_system_commands R221: the draw goes to IV and not to CHAIN. -/
theorem test_ivgen_stores_draw :
    (stateOf (exec .ivgen State.reset)).map (fun t => (t.iv, t.chain, t.draws)) = some (Config.draw 0, 0#64, 1) := rfl

/-- 47_system_commands R223's example: STATUS 0x14D becomes 0x140. -/
theorem test_clrerr_example :
    (stateOf (exec .clrerr { State.reset with status :=
      { err := .illegalCommand, errs := true, padinv := false, trvalid := false, ksvalid := true, mode := .cbc } })).map
      (fun t => statusWord t.status) = some 0x00000140#32 := by decide

/-- 47_system_commands R224's example: KEY is zeroed, KS_INFO[1] reads 0x100, and the buffers keep their bytes. -/
theorem test_sreset_example :
    (stateOf (exec .sreset { messageState 0x133457799BBCDFF1#64 0#64 3 [0x61#8] with
      ks := keySchedule 0x133457799BBCDFF1#64 standardShifts })).map
      (fun t => (t.key, readReg t (.ksInfo 0), t.ilen, t.ibuf)) =
      some (0#64, 0x00000100#32, 0#32, [(0, 0x61#8)]) := by decide

/-! ### A command through the step -/

/-- The host's word for MINIT CTR, as the first command after reset. -/
theorem test_step_runs_first_command :
    stateOf (step (State.reset.withFetchWord 32 0x404)) =
      some { State.reset with resp := .ack, status := { Status.zero with mode := .ctr } } := by decide

/-- Writing 0xC to CMD records IllegalCommand (30_encoding R77). -/
theorem test_step_illegal_command :
    (stateOf (step (State.reset.withFetchWord 32 0xC))).map (fun t => statusWord t.status) = some 0x0000000D#32 := by decide

/-- A hard reset takes the machine to the reset state, the buffers unspecified anew (70_reset R260). -/
theorem test_step_hard_reset :
    (stateOf (step { messageState 1#64 2#64 3 [0x61#8] with pending := [.hardReset] })).map (fun t => (t.key, t.iv, t.ilen, t.ibuf)) =
      some (0#64, 0#64, 0#32, []) := by decide

/-! ### Witnesses: a concrete state and operands for the hypotheses of every statement, clause by clause -/

/-- The standard parameters with other hooks set. -/
def hooked : VariantParams := { stdParams with skipIp := true, skipFp := true, revKeys := true, altShift := true, nr := 16 }

theorem witness_DecodeAfterEncodeIsIdentity :
    (Instr.minit 4#3).WellFormed ∧ (Instr.msgenc 4#3 true).WellFormed ∧ (Instr.msgdec 0#3).WellFormed ∧ Instr.nop.WellFormed := by
  decide

theorem witness_DecodedWordEncodesBack : decode 0x00000C07#32 = .ok (.msgenc 4#3 true) := by decide

theorem witness_DecodingFollowsOpcodeMap :
    (⟨"MSGENC", 0xFFFFF0FF#32, 0x00000007#32, true⟩ : OpcodeRow) ∈ opcodeTable ∧
      OpcodeRow.Selects ⟨"MSGENC", 0xFFFFF0FF#32, 0x00000007#32, true⟩ 0x00000C07#32 ∧
      decode 0x00000C07#32 = .ok (.msgenc 4#3 true) := by decide

theorem witness_CmdWriteRunsDecodedCommand :
    decode 0x0000000B#32 = .ok .sreset ∧ decode 0x0000000C#32 = .error (.opcodeAbove0B 0x0C#8) := by decide

theorem witness_IllegalCommandRecordsOnlyTheError :
    0x0B < (opcField 0x0000000C#32).toNat ∧
      ((opcField 0x00000804#32).toNat ∈ [0x04, 0x08] ∧ (0x00000804#32).extractLsb' 11 21 ≠ 0#21) ∧
      ((opcField 0x00000508#32).toNat ∈ [0x04, 0x08] ∧ 4 < (modeField 0x00000508#32).toNat) ∧
      ((opcField 0x00001007#32).toNat = 0x07 ∧ (0x00001007#32).extractLsb' 12 20 ≠ 0#20) ∧
      ((opcField 0x00000507#32).toNat = 0x07 ∧ 4 < (modeField 0x00000507#32).toNat) ∧
      ((opcField 0x00000100#32).toNat ∉ [0x04, 0x07, 0x08] ∧ (0x00000100#32).extractLsb' 8 24 ≠ 0#24) := by decide

theorem witness_IdleEngineKeepsItsState : (blockState 1#64 2#64).pending = [] := rfl

theorem witness_BufferWindowsPackBigEndian :
    legalBufBytes State.reset.bufBytes ∧ 4 * 0 + 3 < State.reset.bufBytes ∧ 4 * 1023 + 3 < State.reset.bufBytes ∧
      ¬ 4 * 1024 + 3 < State.reset.bufBytes ∧ (0 < 4 * 1 ∧ 4 * 1 + 4 ≤ 8) := by decide

/-- Listed: the first and last word of each region; not listed: their neighbours; writable and read-only offsets. -/
theorem witness_RefusedAccessesChangeNothing :
    legalBufBytes 4096 ∧ legalBufBytes 24 ∧ legalBufBytes 65536 ∧
      listedOffset 4096 0x204 ∧ listedOffset 4096 0x220 ∧ listedOffset 4096 0x410 ∧ listedOffset 4096 0x800 ∧
      listedOffset 4096 0xBEC ∧ listedOffset 4096 0x10FFC ∧ listedOffset 4096 0x20FFC ∧
      ¬ listedOffset 4096 0x1C ∧ ¬ listedOffset 4096 0x11000 ∧
      writableOffset 4096 0x00 ∧ writableOffset 4096 0x10FFC ∧ ¬ writableOffset 4096 0x04 ∧ ¬ writableOffset 4096 0x20000 := by
  refine ⟨by decide, by decide, by decide, .inl (by decide), .inr (.inl ⟨1, 0, by decide⟩), .inr (.inl ⟨16, 0x10, by decide⟩),
    .inr (.inr (.inl ⟨0, 0, by decide⟩)), .inr (.inr (.inl ⟨15, 0x2C, by decide⟩)),
    .inr (.inr (.inr (.inl ⟨4092, by decide⟩))), .inr (.inr (.inr (.inr ⟨4092, by decide⟩))), ?_, ?_,
    .inl (by decide), .inr ⟨4092, by decide⟩, ?_, ?_⟩
  · rintro (h | ⟨r, f, h⟩ | ⟨i, f, h⟩ | ⟨a, h⟩ | ⟨a, h⟩)
    · revert h
      decide
    all_goals omega
  · rintro (h | ⟨r, f, h1, h2, h3, h4⟩ | ⟨i, f, h1, h2, h3⟩ | ⟨a, h⟩ | ⟨a, h⟩)
    · revert h
      decide
    · have : f ≤ 0x10 := by revert h3; simp; omega
      omega
    · have : f ≤ 0x2C := by revert h2; simp; omega
      omega
    all_goals omega
  · rintro (h | ⟨a, h⟩)
    · revert h
      decide
    · omega
  · rintro (h | ⟨a, h⟩)
    · revert h
      decide
    · omega

theorem witness_ClrerrClearsTheErrorRecord :
    Instr.nop ≠ .clrerr ∧ Instr.nop ≠ .sreset ∧ ({ State.reset with status := failedStatus } : State).status.errs = true ∧
      ∃ t, exec .nop { State.reset with status := failedStatus } = .next t := ⟨by decide, by decide, rfl, ⟨_, rfl⟩⟩

theorem witness_HexConversionRoundTrips :
    32 ∈ [64, 56, 48, 32] ∧ ['0', '1', '2', '3', 'c', 'd', 'e', 'f'].length = 32 / 4 ∧ 0 < 32 / 4 ∧ 7 < 32 / 4 ∧
      ∀ c ∈ ['0', '1', '2', '3', 'c', 'd', 'e', 'f'],
        c ∈ ['0', '1', '2', '3', '4', '5', '6', '7', '8', '9', 'a', 'b', 'c', 'd', 'e', 'f'] := by simp

theorem witness_KeyScheduleRoundsAccumulate :
    standardShifts.length = 16 ∧ (0 : Fin 16).val = 0 ∧ (14 : Fin 16).val + 1 = (15 : Fin 16).val := by decide

/-- Two keys that differ in a parity bit alone (40_tables_primitives R111 (d)). -/
theorem witness_ScheduleClosesAndIgnoresParity :
    0x133457799BBCDFF1#64 ≠ 0x133457799BBCDFF0#64 ∧
      0x133457799BBCDFF1#64 &&& 0xFEFEFEFEFEFEFEFE#64 = 0x133457799BBCDFF0#64 &&& 0xFEFEFEFEFEFEFEFE#64 := by decide

/-- The table of the worked example of 40_tables_primitives R90, which repeats a position and leaves two out. -/
theorem witness_TablesHaveTheirListedProperties :
    (∀ p ∈ [4, 4, 1], 1 ≤ p ∧ p ≤ 4) ∧ perm 3 [4, 4, 1] 0b1010#4 = 0b001#3 ∧ rotl 0x8000001#28 1 = 0x0000003#28 := by decide

theorem witness_TraceRecordsFollowTheRounds :
    stdParams.nr ≤ 16 ∧ hooked.nr ≤ 16 ∧ (15 : Fin 16).val < 16 ∧ (15 : Fin 16).val = (14 : Fin 16).val + 1 ∧
      ({ stdParams with nr := 1 } : VariantParams).nr ≤ 16 ∧ 1 ≤ (1 : Fin 16).val := by decide

theorem witness_OutputComesFromTheLastRound :
    stdParams.nr ≤ 16 ∧ (15 : Fin 16).val + 1 = 16 ∧
      ({ stdParams with nr := 1 } : VariantParams).nr ≤ 16 ∧ (0 : Fin 16).val + 1 = 1 := by decide

theorem witness_RoundTripUnderKeyVariants :
    (stdParams.skipIp = stdParams.skipFp ∧ stdParams.skipSwap = false ∧ stdParams.swapr = 0 ∧ stdParams.nr = 0) ∧
      (hooked.skipIp = hooked.skipFp ∧ hooked.skipSwap = false ∧ hooked.swapr = 0 ∧ hooked.nr = 16) := by decide

theorem witness_HookIdentitiesHold :
    stdParams.nr ≤ 16 ∧ (if stdParams.nr = 0 then 16 else stdParams.nr) < 17 ∧
      ({ stdParams with nr := 4 } : VariantParams).nr ≤ 16 ∧ 4 < 5 := by decide

theorem witness_BlockCommandsStoreOutputScheduleAndTrace :
    State.reset.variant.nr.toNat ≤ 16 ∧ State.reset.variant.swapr.toNat ≤ 16 ∧
      (variantOfWord 0x00101000#32).nr.toNat = 16 ∧ (variantOfWord 0x00101000#32).swapr.toNat = 16 := by decide

theorem witness_VariantOutOfRangeFailsBlockCommands :
    16 < (variantOfWord 0x00001100#32).nr.toNat ∧ 16 < (variantOfWord 0x00110000#32).swapr.toNat := by decide

theorem witness_StreamModesHaveOneDirection :
    ({ State.reset with status := { Status.zero with mode := .ofb } } : State).status.mode = .ofb ∧
      ({ State.reset with status := { Status.zero with mode := .ctr } } : State).status.mode = .ctr := ⟨rfl, rfl⟩

theorem witness_CtrIncrementCarriesBytewise :
    ({ State.reset with status := { Status.zero with mode := .ctr } } : State).status.mode = .ctr := rfl

theorem witness_ChainRoundTripsInEveryMode :
    (blockState 1#64 2#64).key = (blockState 1#64 3#64).key ∧ (blockState 1#64 2#64).iv = (blockState 1#64 3#64).iv ∧
      blockState 1#64 2#64 ≠ blockState 1#64 3#64 := by decide

theorem witness_MsgencTooLongFails :
    (messageState 0#64 0#64 4081 []).bufBytes < (messageState 0#64 0#64 4081 []).ilen.toNat + 16 := by decide

theorem witness_MsgencCompletesWithLengthsAndIv :
    (messageState 0#64 0#64 4080 []).ilen.toNat + 16 ≤ (messageState 0#64 0#64 4080 []).bufBytes ∧
      State.reset.ilen.toNat + 16 ≤ State.reset.bufBytes ∧ Mode.ctr ≠ .ecb := by decide

/-- MSGENC fails on a message that is too long, and completes on an empty one: in both cases with a next state. -/
theorem witness_MsgencFrame :
    modeOfBits 4#3 = some .ctr ∧
      (∃ t, exec (.msgenc 4#3 true) (messageState 0#64 0#64 4081 []) = .next t) ∧ (∃ t, exec (.msgenc 4#3 true) State.reset = .next t) ∧
      bodyOffset .ctr + 8 * padBlocks State.reset.ilen.toNat = 16 := ⟨by decide, ⟨_, rfl⟩, ⟨_, rfl⟩, by decide⟩

theorem witness_MsgencEqualsBlockCommands :
    (messageState 1#64 2#64 4080 []).ilen.toNat + 16 ≤ (messageState 1#64 2#64 4080 []).bufBytes := by decide

theorem witness_MsgencRandomIvIsADrawFirst :
    (messageState 1#64 2#64 4080 []).ilen.toNat + 16 ≤ (messageState 1#64 2#64 4080 []).bufBytes ∧ Mode.cbc ≠ .ecb := by decide

/-- The lengths of 45_mode_message R192 and 60_exceptions R239, each in its own clause. -/
theorem witness_MsgdecErrorsInOrder :
    (messageState 0#64 0#64 4097 []).bufBytes < (messageState 0#64 0#64 4097 []).ilen.toNat ∧
      ((messageState 0#64 0#64 15 []).ilen.toNat ≤ 4096 ∧ Mode.cbc ≠ .ecb ∧ (messageState 0#64 0#64 15 []).ilen.toNat < 16) ∧
      ((messageState 0#64 0#64 7 []).ilen.toNat ≤ 4096 ∧ ((messageState 0#64 0#64 7 []).ilen.toNat - 0) % 8 ≠ 0) ∧
      (16 ≤ (messageState 0#64 0#64 17 []).ilen.toNat ∧ ((messageState 0#64 0#64 17 []).ilen.toNat - 8) % 8 ≠ 0) ∧
      (opcField 0x00000508#32).toNat = 0x08 ∧ 4 < (modeField 0x00000508#32).toNat := by decide

/-- An empty and a full ECB input, the shortest and the longest input with an IV. -/
theorem witness_MsgdecCompletesWithLengthsAndIv :
    (State.reset.ilen.toNat = 0 + 8 * 0 ∧ State.reset.ilen.toNat ≤ State.reset.bufBytes) ∧
      ((messageState 0#64 0#64 4096 []).ilen.toNat = 0 + 8 * 512 ∧ (messageState 0#64 0#64 4096 []).ilen.toNat ≤ 4096) ∧
      ((messageState 0#64 0#64 16 []).ilen.toNat = 8 + 8 * 1 ∧ (Mode.cbc ≠ .ecb → 1 ≤ 1)) ∧
      ((messageState 0#64 0#64 4096 []).ilen.toNat = 8 + 8 * 511 ∧ (Mode.ofb ≠ .ecb → 1 ≤ 511)) := by decide

theorem witness_MsgdecFrame :
    modeOfBits 1#3 = some .cbc ∧ (∃ t, exec (.msgdec 1#3) (messageState 0#64 0#64 16 []) = .next t) ∧
      (∃ t, exec (.msgdec 0#3) State.reset = .next t) ∧ (messageState 0#64 0#64 16 []).ilen.toNat - bodyOffset .cbc = 8 :=
  ⟨by decide, ⟨_, rfl⟩, ⟨_, rfl⟩, by decide⟩

theorem witness_MsgdecEqualsBlockCommands :
    (State.reset.ilen.toNat = 0 + 8 * 0 ∧ State.reset.ilen.toNat ≤ State.reset.bufBytes) ∧
      ((messageState 0#64 0#64 24 []).ilen.toNat = 8 + 8 * 2 ∧ (messageState 0#64 0#64 24 []).ilen.toNat ≤ 4096) := by decide

theorem witness_MessageTraceIsTheFirstBlocks :
    (State.reset.ilen.toNat + 16 ≤ State.reset.bufBytes ∧ ∃ t, exec (.msgenc 2#3 false) State.reset = .next t) ∧
      ((messageState 0#64 0#64 16 []).ilen.toNat = 8 + 8 * 1 ∧
        ∃ t, exec (.msgdec 2#3) (messageState 0#64 0#64 16 []) = .next t) :=
  ⟨⟨by decide, ⟨_, rfl⟩⟩, by decide, ⟨_, rfl⟩⟩

/-- An OBUF of zeros but for the bytes `bs` that end at offset 8. -/
def tailState (bs : List Byte) : State :=
  { State.reset with obuf := (List.replicate (8 - bs.length) 0#8 ++ bs).zipIdx.map fun p => (p.2, p.1) }

/-- The tails of 45_mode_message R182: `01` and `02 02` are paddings; `03 02`, `00` and `09` are none, nor is an empty payload. -/
theorem test_unpad_tails :
    unpad (tailState [1#8]) 8 = (7, false) ∧ unpad (tailState [2#8, 2#8]) 8 = (6, false) ∧
      unpad (tailState [3#8, 2#8]) 8 = (8, true) ∧ unpad (tailState [0#8]) 8 = (8, true) ∧
      unpad (tailState [9#8]) 8 = (8, true) ∧ unpad (tailState [1#8]) 0 = (0, true) := by decide

/-- A payload whose last bytes `02 02` are its padding, and one whose last bytes `03 02` are none.
An OBUF that holds the padded payloads of 5 and of 0 bytes (45_mode_message R180), and two states that agree on the last 8 bytes alone. -/
theorem witness_UnpadRemovesPaddingAlone :
    ((8 ≠ 0 ∧ 1 ≤ ((tailState [2#8, 2#8]).obufByte 7).toNat ∧ ((tailState [2#8, 2#8]).obufByte 7).toNat ≤ 8 ∧
        ∀ j, 1 ≤ j → j ≤ ((tailState [2#8, 2#8]).obufByte 7).toNat →
          (tailState [2#8, 2#8]).obufByte (8 - j) = (tailState [2#8, 2#8]).obufByte 7) ∧
      ¬ ∀ j, 1 ≤ j → j ≤ ((tailState [3#8, 2#8]).obufByte 7).toNat →
          (tailState [3#8, 2#8]).obufByte (8 - j) = (tailState [3#8, 2#8]).obufByte 7) ∧
    (∀ j, j < padLen 5 → ({ State.reset with obuf := [(5, 3#8), (6, 3#8), (7, 3#8)] } : State).obufByte (5 + j) =
        BitVec.ofNat 8 (padLen 5)) ∧
      (∀ j, j < padLen 0 →
        ({ State.reset with obuf := (List.range 8).map fun a => (a, 8#8) } : State).obufByte (0 + j) = BitVec.ofNat 8 (padLen 0)) ∧
      (∀ j, 1 ≤ j → j ≤ 8 → j ≤ 9 → ({ State.reset with obuf := [(0, 1#8)] } : State).obufByte (9 - j) = State.reset.obufByte (9 - j)) := by
  refine ⟨⟨⟨by decide, by decide, by decide, fun j h1 h2 => ?_⟩, fun h => absurd (h 2 (by decide) (by decide)) (by decide)⟩,
    fun j hj => ?_, fun j hj => ?_, fun j h1 h2 _ => ?_⟩
  · have : j ≤ 2 := h2
    interval_cases j <;> rfl
  · have : j = 0 ∨ j = 1 ∨ j = 2 := by revert hj; simp only [padLen]; omega
    rcases this with rfl | rfl | rfl <;> rfl
  · have : j < 8 := hj
    interval_cases j <;> rfl
  · interval_cases j <;> rfl

/-- The empty message in ECB, and what MSGENC leaves of it handed to another state with the same KEY. -/
theorem witness_MessagesRoundTripInEveryMode :
    ∃ t s' : State, State.reset.bufBytes ≤ 65536 ∧ State.reset.ilen.toNat + 16 ≤ State.reset.bufBytes ∧
      exec (.msgenc (modeNumber .ecb) false) State.reset = .next t ∧ s'.key = State.reset.key ∧
      s'.bufBytes = State.reset.bufBytes ∧ s'.ilen = t.olen ∧ ∀ a, a < t.olen.toNat → s'.ibufByte a = t.obufByte a := by
  let t := State.reset.encryptMessage .ecb false
  refine ⟨t, { State.reset with ilen := t.olen, ibuf := (List.range 8).map fun a => (a, t.obufByte a), din := 1#64 },
    by decide, by decide, rfl, rfl, rfl, rfl, fun a ha => ?_⟩
  have : a < 8 := ha
  interval_cases a <;> rfl

theorem witness_CommandsCompleteOrChangeOnlyTheRecord :
    (∃ t, exec .clrerr State.reset = .next t) ∧ (∃ t, exec (.msgdec 1#3) State.reset = .next t) ∧
      decode 0x00000102#32 = .error .nonzeroReservedBits := ⟨⟨_, rfl⟩, ⟨_, rfl⟩, by decide⟩

/-- A state with the smallest buffers and a hard reset pending. -/
theorem witness_EveryStepKeepsTheInvariant :
    ({ State.reset with bufBytes := 24, key := 5#64, pending := [.hardReset] } : State).Inv ∧
      ∃ t, step { State.reset with bufBytes := 24, key := 5#64, pending := [.hardReset] } = .next t :=
  ⟨{ bufBytesLegal := by decide
     ibufWf := List.Pairwise.nil
     obufWf := List.Pairwise.nil
     ibufWithin := fun c hc => absurd hc List.not_mem_nil
     obufWithin := fun c hc => absurd hc List.not_mem_nil
     ksvalidTrue := fun h => by cases h
     trvalidLen := fun h => by cases h
     trLen := by decide
     trOut := rfl
     trRecords := by decide
     trTail := by decide }, ⟨_, rfl⟩⟩

theorem witness_ChainSurvivesOtherCommands :
    Instr.ivgen ∈ [Instr.encblk, .decblk, .keyexp, .nop, .ivgen, .clrerr] ∧ ∃ t, exec .ivgen State.reset = .next t :=
  ⟨by decide, ⟨_, rfl⟩⟩

theorem witness_OnlyBlockCommandsReadVariant :
    Instr.keyexp ∉ [Instr.encblk, .decblk, .sreset] ∧ ∃ t, exec .keyexp State.reset = .next t := ⟨by decide, ⟨_, rfl⟩⟩

/-- Another state that differs in a flag, DOUT and OLEN alone. -/
theorem witness_CommandsIgnoreFlagsBanksAndOutputs :
    ∃ s' t : State, s' ≠ State.reset ∧
      s' = { State.reset with ks := s'.ks, tr := s'.tr, dout := s'.dout, olen := s'.olen,
                              status := { s'.status with mode := State.reset.status.mode } } ∧
      exec .nop State.reset = .next t :=
  ⟨{ State.reset with dout := 1#64, olen := 2#32, status := failedStatus }, _, by decide, rfl, rfl⟩

theorem witness_DrawsAreMadeOnlyForAnIv :
    (∃ t, exec .ivgen State.reset = .next t) ∧
      (Mode.ctr ≠ .ecb ∧ Instr.msgenc 4#3 true = .msgenc (modeNumber .ctr) true ∧
        State.reset.ilen.toNat + 16 ≤ State.reset.bufBytes ∧ ∃ t, exec (.msgenc 4#3 true) State.reset = .next t) ∧
      ∃ t, exec .nop State.reset = .next t := ⟨⟨_, rfl⟩, ⟨by decide, rfl, by decide, ⟨_, rfl⟩⟩, ⟨_, rfl⟩⟩

theorem witness_CommandsLeaveHostInputsAlone :
    (∃ t, exec .sreset (blockState 1#64 2#64) = .next t) ∧ Instr.encblk ≠ .sreset ∧
      ∃ t, exec .encblk (blockState 1#64 2#64) = .next t := ⟨⟨_, rfl⟩, by decide, ⟨_, rfl⟩⟩

end Sys2Proof.Tests
end

section
/-! SUPPORT. The invariant of the engine: what each named operation needs to keep it, then every command, every host access and every step (00_scope R6; 10_state R17, R27, R28; 20_memory R62). -/

namespace Sys2Proof.Machine

/-! ### The banks that a core invocation stores -/

/-- A record of one round on its own L, R and K (10_state R28; 42_round_function R132). -/
def TrRecord.IsRound (r : TrRecord) : Prop := r = roundRecord { l := r.l, r := r.r } r.k

theorem roundRecord_isRound (x : Halves) (k : Subkey) : (roundRecord x k).IsRound := rfl

/-- What the invariant says of the bank TR alone (10_state R27, R28), and that it holds at least one record, as a trace does. -/
structure TrBank.IsTrace (b : TrBank) : Prop where
  lenPos : 1 ≤ b.len.toNat
  lenLe : b.len.toNat ≤ 16
  outEq : b.out = b.fp
  records : ∀ i : Fin 16, i.val < b.len.toNat → b.recs[i].IsRound
  tail : ∀ i : Fin 16, b.len.toNat ≤ i.val → b.recs[i] = TrRecord.zero

/-- The bank KS holds the schedule of `key` under some sixteen rotation amounts (10_state R17). -/
def KsBank.IsScheduleOf (b : KsBank) (key : Block) : Prop :=
  ∃ sh : List (BitVec 2), sh.length = 16 ∧ b = keySchedule key sh

theorem keySchedule_standardShifts_isScheduleOf (key : Block) :
    (keySchedule key standardShifts).IsScheduleOf key := ⟨_, rfl, rfl⟩

/-- The bound on NR and the sixteen amounts that the core may count on (43_block_cipher R141). -/
structure VariantParams.Legal (vp : VariantParams) : Prop where
  nrLe : vp.nr ≤ 16
  altshLength : vp.altsh.length = 16

@[simp] theorem altShiftEntries_length (w : Word) : (altShiftEntries w).length = 16 := by simp [altShiftEntries]

theorem stdParams_legal : stdParams.Legal := ⟨by decide, by decide⟩

theorem variantParams_legal {s : State} {vp : VariantParams} (h : variantParams s = some vp) : vp.Legal := by
  unfold variantParams at h
  split at h
  · cases h
  · rename_i hle
    cases h
    exact ⟨by show s.variant.nr.toNat ≤ 16; omega, altShiftEntries_length _⟩

theorem VariantParams.Legal.shiftAmounts_length {vp : VariantParams} (h : vp.Legal) :
    (shiftAmounts vp).length = 16 := by
  unfold shiftAmounts
  split
  · exact h.altshLength
  · rfl

theorem VariantParams.Legal.roundCount_bounds {vp : VariantParams} (h : vp.Legal) :
    1 ≤ roundCount vp ∧ roundCount vp ≤ 16 := by
  have := h.nrLe
  unfold roundCount
  split <;> omega

theorem cipherCore_ks_isScheduleOf (x key : Block) (d : Dir) {vp : VariantParams} (h : vp.Legal) :
    (cipherCore x key d vp).ks.IsScheduleOf key := ⟨_, h.shiftAmounts_length, rfl⟩

theorem runRounds_getD_isRound {swapr i a : Nat} {ks : List Subkey} {h : Halves} (ha : a < ks.length) :
    ((runRounds swapr i ks h).1.getD a TrRecord.zero).IsRound := by
  obtain ⟨x, hx, -⟩ := runRounds_getElem swapr (i := i) (h := h) (List.getElem?_eq_getElem ha)
  rw [List.getD_eq_getElem?_getD, hx]
  exact roundRecord_isRound _ _

/-- The rounds make no record beyond the last subkey. -/
theorem runRounds_getD_zero {swapr i a : Nat} {ks : List Subkey} {h : Halves} (ha : ks.length ≤ a) :
    (runRounds swapr i ks h).1.getD a TrRecord.zero = TrRecord.zero :=
  List.getD_eq_default _ _ (by rwa [runRounds_length])

/-- What a core invocation leaves for StoreTR is a trace, with one record per round (10_state R27, R28). -/
theorem cipherCore_tr_isTrace (x key : Block) (d : Dir) {vp : VariantParams} (h : vp.Legal) :
    (cipherCore x key d vp).tr.IsTrace := by
  obtain ⟨hpos, hle⟩ := h.roundCount_bounds
  have hlen : (cipherCore x key d vp).tr.len.toNat = roundCount vp := by
    show (BitVec.ofNat 5 (roundCount vp)).toNat = _
    rw [BitVec.toNat_ofNat, Nat.mod_eq_of_lt (by omega)]
  have hkeys : ((subkeySequence (keySchedule key (shiftAmounts vp)) d vp.revKeys).take (roundCount vp)).length =
      roundCount vp := by
    rw [List.length_take, subkeySequence_length, Nat.min_eq_left hle]
  refine { lenPos := by omega, lenLe := by omega, outEq := rfl, records := fun i hi => ?_, tail := fun i hi => ?_ }
  · simp only [cipherCore, Fin.getElem_fin, Vector.getElem_ofFn]
    exact runRounds_getD_isRound (by omega)
  · simp only [cipherCore, Fin.getElem_fin, Vector.getElem_ofFn]
    exact runRounds_getD_zero (by omega)

/-! ### The states after a reset -/

/-- With STATUS and TR as after reset, the invariant is about the buffers alone: both banks are marked empty. -/
theorem State.Inv.of_statusZero {s : State} (hst : s.status = Status.zero) (htr : s.tr = TrBank.zero)
    (hlegal : legalBufBytes s.bufBytes) (hiw : s.ibuf.wf) (how : s.obuf.wf) (hib : s.ibuf.within s.bufBytes)
    (hob : s.obuf.within s.bufBytes) : s.Inv where
  bufBytesLegal := hlegal
  ibufWf := hiw
  obufWf := how
  ibufWithin := hib
  obufWithin := hob
  ksvalidTrue hk := by rw [hst] at hk; cases hk
  trvalidLen hv := by rw [hst] at hv; cases hv
  trLen := by rw [htr]; decide
  trOut := by rw [htr]; rfl
  trRecords i hi := by rw [htr] at hi; exact absurd hi (Nat.not_lt_zero _)
  trTail i _ := by simp [htr, TrBank.zero]

theorem Memory.nil_wf : Memory.wf [] := List.Pairwise.nil

theorem Memory.nil_within (bound : Nat) : Memory.within bound [] := fun _ hc => absurd hc List.not_mem_nil

theorem State.inv_reset : State.reset.Inv :=
  .of_statusZero rfl rfl (by decide) Memory.nil_wf Memory.nil_wf (Memory.nil_within _) (Memory.nil_within _)

/-! ### The named operations -/

namespace State.Inv

variable {s : State} (h : s.Inv)
include h

theorem softReset : s.softReset.Inv :=
  .of_statusZero rfl rfl h.bufBytesLegal h.ibufWf h.obufWf h.ibufWithin h.obufWithin

theorem hardReset : s.hardReset.Inv :=
  .of_statusZero rfl rfl h.bufBytesLegal Memory.nil_wf Memory.nil_wf (Memory.nil_within _) (Memory.nil_within _)

/-! Registers that the invariant does not speak of. -/

theorem withPending (l : List HostEvent) : State.Inv { s with pending := l } := { h with }
theorem respond (r : Response) : (s.respond r).Inv := { h with }
theorem complete : s.complete.Inv := { h with }
theorem fail (c : ErrCode) : (s.fail c).Inv := { h with }
theorem clearErrors : s.clearErrors.Inv := { h with }
theorem setPadinv (b : Bool) : (s.setPadinv b).Inv := { h with }
theorem setIv (v : Block) : (s.setIv v).Inv := { h with }
theorem drawIv : s.drawIv.Inv := { h with }
theorem setDin (v : Block) : (s.setDin v).Inv := { h with }
theorem setDout (v : Block) : (s.setDout v).Inv := { h with }
theorem setChain (v : Block) : (s.setChain v).Inv := { h with }
theorem countBlock : s.countBlock.Inv := { h with }
theorem setVariant (v : Variant) : (s.setVariant v).Inv := { h with }
theorem setAltshift (w : Word) : (s.setAltshift w).Inv := { h with }
theorem setIlen (w : Word) : (s.setIlen w).Inv := { h with }
theorem setOlen (n : Nat) : (s.setOlen n).Inv := { h with }

/-! KEY, the banks and their flags. -/

/-- A new KEY leaves the schedule of the old one in KS, which is why the write clears KSVALID (10_state R39). -/
theorem hostSetKey (v : Block) : (s.hostSetKey v).Inv := { h with ksvalidTrue := fun hk => nomatch hk }

theorem startChain (m : Mode) : (s.startChain m).Inv := { h with trvalidLen := fun hv => nomatch hv }

theorem storeKs {b : KsBank} (hb : b.IsScheduleOf s.key) : (s.storeKs b).Inv :=
  { h with ksvalidTrue := fun _ => hb }

theorem storeTr {b : TrBank} (hb : b.IsTrace) : (s.storeTr b).Inv :=
  { h with
    trvalidLen := fun _ => hb.lenPos
    trLen := hb.lenLe
    trOut := hb.outEq
    trRecords := hb.records
    trTail := hb.tail }

/-! The buffers. -/

theorem obufWrite {a : Nat} (ha : a + 8 ≤ s.bufBytes) (v : Block) : (s.obufWrite a v).Inv :=
  { h with
    obufWf := Memory.writeBytes_wf h.obufWf a 8 v
    obufWithin := Memory.writeBytes_within h.obufWithin ha v }

theorem ibufWrite {a : Nat} (ha : a + 4 ≤ s.bufBytes) (w : Word) : (s.ibufWrite a w).Inv :=
  { h with
    ibufWf := Memory.writeBytes_wf h.ibufWf a 4 w
    ibufWithin := Memory.writeBytes_within h.ibufWithin ha w }

/-! ### One core invocation, one chain step -/

theorem runBlock (d : Dir) {vp : VariantParams} (hvp : vp.Legal) : (s.runBlock d vp).Inv :=
  (((h.storeKs (cipherCore_ks_isScheduleOf _ _ _ hvp)).setDout _).storeTr (cipherCore_tr_isTrace _ _ _ hvp)).complete

theorem chainStep (m : Mode) (d : Dir) : (s.chainStep m d).Inv := by
  have hks : (chainCore m d s).ks.IsScheduleOf s.key := cipherCore_ks_isScheduleOf _ _ _ stdParams_legal
  have htr : (chainCore m d s).tr.IsTrace := cipherCore_tr_isTrace _ _ _ stdParams_legal
  have hstored := ((h.storeKs hks).setDout (chainResult m d s.din s.chain (chainCore m d s).out).1).setChain
    (chainResult m d s.din s.chain (chainCore m d s).out).2
  unfold State.chainStep
  by_cases h0 : s.blkcnt = 0#32
  · simp only [if_pos h0]
    exact (hstored.storeTr htr).countBlock
  · simp only [if_neg h0]
    exact hstored.countBlock

/-- One pass of a message loop, with a block of OBUF inside BUF_BYTES (20_memory R62). -/
theorem pass (m : Mode) (d : Dir) {a : Nat} (ha : a + 8 ≤ s.bufBytes) (b : Block) :
    (((s.setDin b).chainStep m d).obufWrite a ((s.setDin b).chainStep m d).dout).Inv :=
  ((h.setDin b).chainStep m d).obufWrite (by rwa [State.chainStep_bufBytes]) _

end State.Inv

/-! ### Whole messages -/

@[simp] theorem encryptBlocks_bufBytes (m : Mode) (o n k : Nat) (s : State) :
    (encryptBlocks m o n k s).bufBytes = s.bufBytes := by
  obtain ⟨_, _, _, _, _, _, h⟩ := encryptBlocks_frame m o n k s
  rw [h]

@[simp] theorem decryptBlocks_bufBytes (m : Mode) (o k : Nat) (s : State) :
    (decryptBlocks m o k s).bufBytes = s.bufBytes := by
  obtain ⟨_, _, _, _, _, _, h⟩ := decryptBlocks_frame m o k s
  rw [h]

@[simp] theorem State.chooseIv_bufBytes (m : Mode) (riv : Bool) (s : State) :
    (s.chooseIv m riv).bufBytes = s.bufBytes := by
  unfold State.chooseIv
  split <;> rfl

@[simp] theorem State.prependIv_bufBytes (m : Mode) (s : State) : (s.prependIv m).bufBytes = s.bufBytes := by
  unfold State.prependIv
  split <;> rfl

@[simp] theorem State.splitIv_bufBytes (m : Mode) (s : State) : (s.splitIv m).bufBytes = s.bufBytes := by
  unfold State.splitIv
  split <;> rfl

theorem bodyOffset_le (m : Mode) : bodyOffset m ≤ 8 := by cases m <;> decide

namespace State.Inv

variable {s : State} (h : s.Inv)
include h

theorem encryptBlocks (m : Mode) (o n k : Nat) (hk : o + 8 * k ≤ s.bufBytes) : (encryptBlocks m o n k s).Inv := by
  induction k with
  | zero => exact h
  | succ k ih =>
    rw [encryptBlocks_succ]
    exact (ih (by omega)).pass m .enc (by rw [encryptBlocks_bufBytes]; omega) _

theorem decryptBlocks (m : Mode) (o k : Nat) (hk : 8 * k ≤ s.bufBytes) : (decryptBlocks m o k s).Inv := by
  induction k with
  | zero => exact h
  | succ k ih =>
    rw [decryptBlocks_succ]
    exact (ih (by omega)).pass m .dec (by rw [decryptBlocks_bufBytes]; omega) _

theorem chooseIv (m : Mode) (riv : Bool) : (s.chooseIv m riv).Inv := by
  unfold State.chooseIv
  split
  · exact h.drawIv
  · exact h

theorem prependIv (m : Mode) : (s.prependIv m).Inv := by
  unfold State.prependIv
  split
  · exact h.obufWrite (by have := h.bufBytesLegal; omega) _
  · exact h

theorem splitIv (m : Mode) : (s.splitIv m).Inv := by
  unfold State.splitIv
  split
  · exact h.setIv _
  · exact h

/-- The check of MSGENC keeps the IV and the padded payload inside OBUF (45_mode_message R183). -/
theorem encryptMessage (m : Mode) (riv : Bool) (hn : s.ilen.toNat + 16 ≤ s.bufBytes) :
    (s.encryptMessage m riv).Inv := by
  have hfits : bodyOffset m + 8 * padBlocks s.ilen.toNat ≤ s.bufBytes := by
    have := bodyOffset_le m
    have := padLen_le s.ilen.toNat
    rw [eight_padBlocks]
    omega
  have hstart := (((h.chooseIv m riv).startChain m).complete).prependIv m
  exact ((hstart.encryptBlocks m _ _ _ (by simpa using hfits)).setOlen _).complete

theorem decryptMessage (m : Mode) {len : Nat} (hlen : len ≤ s.bufBytes) : (s.decryptMessage m len).Inv := by
  have hstart := ((h.splitIv m).startChain m).complete
  have hfits : 8 * (len / 8) ≤ s.bufBytes := by omega
  exact (((hstart.decryptBlocks m _ _ (by simpa using hfits)).setOlen _).setPadinv _).complete

end State.Inv

/-! ### Commands -/

/-- Every command keeps the invariant. -/
theorem exec_keeps_inv {i : Instr} {s t : State} (h : s.Inv) (he : exec i s = .next t) : t.Inv := by
  cases i with
  | nop => cases he; exact h.complete
  | keyexp => cases he; exact (h.storeKs (keySchedule_standardShifts_isScheduleOf _)).complete
  | encblk =>
    obtain ⟨-, hx⟩ | ⟨vp, hvp, hx⟩ := exec_encblk_cases s <;> cases hx.symm.trans he
    · exact h.fail _
    · exact h.runBlock _ (variantParams_legal hvp)
  | decblk =>
    obtain ⟨-, hx⟩ | ⟨vp, hvp, hx⟩ := exec_decblk_cases s <;> cases hx.symm.trans he
    · exact h.fail _
    · exact h.runBlock _ (variantParams_legal hvp)
  | minit mode =>
    obtain ⟨-, hx⟩ | ⟨m, -, hx⟩ := exec_minit_cases mode s <;> cases hx.symm.trans he
    · exact h.fail _
    · exact (h.startChain m).complete
  | mblke => cases he; exact (h.chainStep _ _).complete
  | mblkd => cases he; exact (h.chainStep _ _).complete
  | msgenc mode riv =>
    obtain ⟨-, hx⟩ | ⟨m, -, -, hx⟩ | ⟨m, -, hn, hx⟩ := exec_msgenc_cases mode riv s <;> cases hx.symm.trans he
    · exact h.fail _
    · exact h.fail _
    · exact h.encryptMessage m riv hn
  | msgdec mode =>
    obtain ⟨-, hx⟩ | ⟨m, c, -, -, hx⟩ | ⟨m, -, hn, -, -, hx⟩ := exec_msgdec_cases mode s <;> cases hx.symm.trans he
    · exact h.fail _
    · exact h.fail _
    · exact h.decryptMessage m (by omega)
  | ivgen => cases he; exact h.drawIv.complete
  | clrerr => cases he; exact h.clearErrors
  | sreset => cases he; exact h.softReset

theorem execWord_keeps_inv {w : Word} {s t : State} (h : s.Inv) (he : execWord w s = .next t) : t.Inv := by
  unfold execWord at he
  split at he
  · exact exec_keeps_inv h he
  · cases he
    exact h.fail _

/-! ### Host accesses -/

/-- The state after an event from outside, or in which the command it gives still has to run. -/
def BusResult.state (b : BusResult) : State :=
  match b with
  | .done s => s
  | .command _ s => s

/-- What a host write can come to: a command word, a register replaced, or a refusal. -/
theorem busWrite_cases (s : State) (width offset : Nat) (w : Word) :
    busWrite s width offset w = .command w (s.respond .ack) ∨
    (∃ r s', target s width offset = some r ∧ writeReg s r w = some s' ∧
      busWrite s width offset w = .done (s'.respond .ack)) ∨
    busWrite s width offset w = .done s.refuseAccess := by
  unfold busWrite
  split
  · exact .inl rfl
  · rename_i r _ ht
    split
    · rename_i s' hw
      exact .inr (.inl ⟨r, s', ht, hw, rfl⟩)
    · exact .inr (.inr rfl)
  · exact .inr (.inr rfl)

/-- An access reaches a word of IBUF only where the whole word is inside BUF_BYTES (20_memory R56). -/
theorem target_ibufWord_fits {s : State} {width offset a : Nat} (h : target s width offset = some (.ibufWord a)) :
    a + 4 ≤ s.bufBytes := by
  unfold target at h
  split at h
  · obtain ⟨-, -, hfits⟩ := locate_ibufWord_inv h
    omega
  · cases h

/-- A register write keeps the invariant; one to IBUF, where its word is inside BUF_BYTES. -/
theorem writeReg_keeps_inv {s s' : State} {r : Reg} {w : Word} (h : s.Inv)
    (hfits : ∀ a, r = .ibufWord a → a + 4 ≤ s.bufBytes) (hw : writeReg s r w = some s') : s'.Inv := by
  unfold writeReg at hw
  split at hw <;> cases hw
  · exact h.setVariant _
  · exact h.setAltshift _
  · exact h.setIlen _
  · exact h.hostSetKey _
  · exact h.hostSetKey _
  · exact h.setIv _
  · exact h.setIv _
  · exact h.setDin _
  · exact h.setDin _
  · exact h.ibufWrite (hfits _ rfl) w

theorem busRead_keeps_inv {s : State} (h : s.Inv) (width offset : Nat) : (busRead s width offset).Inv := by
  unfold busRead
  split
  · exact h.respond _
  · exact h.respond _

/-- A host write leaves the invariant, both where it is over and where its command is still to run. -/
theorem busWrite_keeps_inv {s : State} (h : s.Inv) (width offset : Nat) (w : Word) :
    (busWrite s width offset w).state.Inv := by
  obtain hb | ⟨r, s', ht, hw, hb⟩ | hb := busWrite_cases s width offset w <;> rw [hb]
  · exact h.respond _
  · exact (writeReg_keeps_inv h (fun a ha => target_ibufWord_fits (ha ▸ ht)) hw).respond _
  · exact h.respond _

/-! ### Steps -/

theorem step_keeps_inv {s t : State} (h : s.Inv) (hst : step s = .next t) : t.Inv := by
  obtain ⟨-, rfl⟩ | ⟨width, offset, rest, -, rfl⟩ | ⟨width, offset, w, rest, -, hb⟩ | ⟨rest, -, rfl⟩ := step_cases hst
  · exact h
  · exact busRead_keeps_inv (h.withPending rest) width offset
  · have hbus := busWrite_keeps_inv (h.withPending rest) width offset w
    obtain hdone | ⟨t', hcmd, hex⟩ := hb
    · rwa [hdone] at hbus
    · rw [hcmd] at hbus
      exact execWord_keeps_inv hbus hex
  · exact (h.withPending rest).hardReset

/-! ### The statements -/

/-- Settles O54: after reset both buffers list nothing and both banks are marked empty. -/
theorem invariantHoldsAtReset : Obligations.InvariantHoldsAtReset := State.inv_reset

/-- Settles O55, by the cases of a step: a host access, a reset, or a command, each of which keeps the invariant. -/
theorem everyStepKeepsTheInvariant : Obligations.EveryStepKeepsTheInvariant :=
  fun _ _ h hst => step_keeps_inv h hst

end Sys2Proof.Machine
end

section
/-! SUPPORT. What a host access to a control register or a bank word comes to, and the statements about single host accesses (10_state R11, R23 to R28, R31, R39). -/

namespace Sys2Proof.Machine

/-! ### Which register an offset reaches -/

/-- The control registers all stand below 0x200, each at a multiple of 4 (10_state R31). -/
theorem locate_of_locateControl {offset : Nat} {r : Reg} (h : locateControl offset = some r) (bufBytes : Nat) :
    locate bufBytes offset = some r := by
  have hplaces : ∀ f ∈ listedControl, locateControl f = none ∨ (f < 0x200 ∧ f % 4 = 0) := by decide
  obtain hnone | ⟨hlt, haligned⟩ := hplaces offset (locateControl_inv h)
  · rw [hnone] at h
    cases h
  · rw [locate_control hlt haligned, h]

theorem locate_of_locateKsField {i : Fin 16} {field : Nat} {r : Reg} (h : locateKsField i field = some r)
    (bufBytes : Nat) : locate bufBytes (0x200 + 0x20 * (i.val + 1) + field) = some r := by
  have hplaces : ∀ f ∈ [0x00, 0x04, 0x08, 0x0C, 0x10], f < 0x20 ∧ f % 4 = 0 := by decide
  obtain ⟨hlt, haligned⟩ := hplaces field (locateKsField_inv h)
  rw [locate_ks bufBytes i hlt haligned, h]

theorem locate_of_locateTrField {i : Fin 16} {field : Nat} {r : Reg} (h : locateTrField i field = some r)
    (bufBytes : Nat) : locate bufBytes (0x800 + 0x40 * i.val + field) = some r := by
  have hplaces : ∀ f ∈ [0x00, 0x04, 0x08, 0x0C, 0x10, 0x14, 0x18, 0x1C, 0x20, 0x24, 0x28, 0x2C],
      f < 0x40 ∧ f % 4 = 0 := by decide
  obtain ⟨hlt, haligned⟩ := hplaces field (locateTrField_inv h)
  rw [locate_tr bufBytes i hlt haligned, h]

/-! ### Reads and writes by region of the map -/

theorem readsAs_control {s : State} {offset : Nat} (r : Reg) (h : locateControl offset = some r) :
    readsAs s offset (readReg s r) := readsAs_of_locate (locate_of_locateControl h _)

theorem readsAs_ks {s : State} {i : Fin 16} {field : Nat} (r : Reg) (h : locateKsField i field = some r) :
    readsAs s (0x200 + 0x20 * (i.val + 1) + field) (readReg s r) := readsAs_of_locate (locate_of_locateKsField h _)

theorem readsAs_tr {s : State} {i : Fin 16} {field : Nat} (r : Reg) (h : locateTrField i field = some r) :
    readsAs s (0x800 + 0x40 * i.val + field) (readReg s r) := readsAs_of_locate (locate_of_locateTrField h _)

theorem writeGives_control {s t : State} {offset : Nat} {w : Word} (r : Reg) (h : locateControl offset = some r)
    (hc : r ≠ .cmd) (hw : writeReg s r w = some t) : writeGives s offset w t :=
  writeGives_of_locate (locate_of_locateControl h _) hc hw

/-! ### The two words that pack small fields -/

/-- TR_INFO: LEN in its low bits, bit 8 set exactly when the traced invocation decrypted (10_state R27, R31). -/
theorem trInfoWord_eq (t : TrBank) :
    trInfoWord t = t.len.setWidth 32 ||| if t.dir = .dec then 0x100#32 else 0#32 := by
  unfold trInfoWord
  generalize t.len = len
  cases t.dir <;> revert len <;> decide

/-- `KS_INFO[i + 1]`: the round number from bit 8 on, the rotation amount in the low bits (10_state R25, R31). -/
theorem ksInfoWord_eq (i : Fin 16) (r : KsRecord) :
    ksInfoWord i r = BitVec.ofNat 32 (256 * (i.val + 1)) ||| r.shift.setWidth 32 := by
  unfold ksInfoWord
  generalize r.shift = shift
  revert i shift
  decide

/-! ### Steps without a register -/

theorem step_idle {s : State} (h : s.pending = []) : step s = .next s := by
  unfold step nextEvent
  rw [h]

theorem execWord_of_decode {w : Word} {i : Instr} (h : decode w = .ok i) (s : State) : execWord w s = exec i s := by
  unfold execWord
  rw [h]

theorem execWord_of_illegal {w : Word} {r : IllegalWord} (h : decode w = .error r) (s : State) :
    execWord w s = .next (s.fail .illegalCommand) := by
  unfold execWord
  rw [h]

/-! ### The statements -/

/-- Settles O8. -/
theorem idleEngineKeepsItsState : Obligations.IdleEngineKeepsItsState := fun _ h => step_idle h

/-- Settles O6: a write to CMD is `execWord` of its word (`step_cmd`), whose two outcomes are those of the decoder. -/
theorem cmdWriteRunsDecodedCommand : Obligations.CmdWriteRunsDecodedCommand := by
  intro s w rest
  refine ⟨fun i hi => ?_, fun r hr => ?_, readsAs_control .cmd rfl rest⟩
  · rw [step_cmd, execWord_of_decode hi]
  · rw [step_cmd, execWord_of_illegal hr]
    rfl

/-- Settles O9, register by register of the map below 0x200. -/
theorem controlRegistersReadAsMapped : Obligations.ControlRegistersReadAsMapped := by
  intro s
  have hinfo : readsAs s 0x80 (trInfoWord s.tr) := readsAs_control .trInfo rfl
  rw [trInfoWord_eq] at hinfo
  exact ⟨readsAs_control .cmd rfl, readsAs_control .status rfl, readsAs_control .blkcnt rfl,
    readsAs_control .variant rfl, readsAs_control .altshift rfl, readsAs_control .ilen rfl, readsAs_control .olen rfl,
    readsAs_control .keyHi rfl, readsAs_control .keyLo rfl, readsAs_control .ivHi rfl, readsAs_control .ivLo rfl,
    readsAs_control .dinHi rfl, readsAs_control .dinLo rfl, readsAs_control .doutHi rfl, readsAs_control .doutLo rfl,
    readsAs_control .chainHi rfl, readsAs_control .chainLo rfl, hinfo,
    readsAs_control .trInHi rfl, readsAs_control .trInLo rfl, readsAs_control .trIpHi rfl, readsAs_control .trIpLo rfl,
    readsAs_control .trFpHi rfl, readsAs_control .trFpLo rfl, readsAs_control .trOutHi rfl, readsAs_control .trOutLo rfl⟩

/-- Settles O10, word by word of the two records; ROUND is the hardwired part of `ksInfoWord`. -/
theorem banksReadAsMapped : Obligations.BanksReadAsMapped := by
  intro s
  refine ⟨readsAs_of_locate (r := .ksC0) rfl, readsAs_of_locate (r := .ksD0) rfl, fun i => ?_, fun i => ?_⟩
  · have hinfo : readsAs s (0x200 + 0x20 * (i.val + 1)) (ksInfoWord i s.ks.recs[i]) :=
      readsAs_ks (field := 0x00) (.ksInfo i) rfl
    rw [ksInfoWord_eq] at hinfo
    exact ⟨hinfo, readsAs_ks (.ksC i) rfl, readsAs_ks (.ksD i) rfl, readsAs_ks (.ksKHi i) rfl, readsAs_ks (.ksKLo i) rfl⟩
  · exact ⟨readsAs_tr (field := 0x00) (.trL i) rfl, readsAs_tr (.trR i) rfl,
      readsAs_tr (.trKHi i) rfl, readsAs_tr (.trKLo i) rfl, readsAs_tr (.trEHi i) rfl, readsAs_tr (.trELo i) rfl,
      readsAs_tr (.trXHi i) rfl, readsAs_tr (.trXLo i) rfl, readsAs_tr (.trS i) rfl, readsAs_tr (.trP i) rfl,
      readsAs_tr (.trBlkHi i) rfl, readsAs_tr (.trBlkLo i) rfl⟩

/-- Settles O13, register by register; `writeReg` on the two halves of KEY is `hostSetKey`, which clears KSVALID. -/
theorem hostWritesReplaceOneRegister : Obligations.HostWritesReplaceOneRegister := by
  intro s w
  exact ⟨writeGives_control .variant rfl nofun rfl, writeGives_control .altshift rfl nofun rfl,
    writeGives_control .ilen rfl nofun rfl, writeGives_control .keyHi rfl nofun rfl,
    writeGives_control .keyLo rfl nofun rfl, writeGives_control .ivHi rfl nofun rfl,
    writeGives_control .ivLo rfl nofun rfl, writeGives_control .dinHi rfl nofun rfl,
    writeGives_control .dinLo rfl nofun rfl⟩

end Sys2Proof.Machine
end

section
/-! SUPPORT. Where the fields of STATUS and VARIANT stand in their words, and what the reserved bits read (10_state R17, R19, R32; 30_encoding R73; 60_exceptions R230).
The words are concatenations of fields 1, 3 or 5 bits wide, so the library's lemmas on `++` are used at those widths of the lower part. -/

namespace Sys2Proof.Machine

/-! ### STATUS -/

theorem statusWord_err (t : Status) : (statusWord t).extractLsb' 0 3 = errNumber t.err :=
  BitVec.extractLsb'_append_eq_right

/-- The four flags, and the reserved bit above them. -/
theorem statusWord_flags (t : Status) :
    (statusWord t).getLsbD 3 = t.errs ∧ (statusWord t).getLsbD 4 = t.padinv ∧ (statusWord t).getLsbD 5 = t.trvalid ∧
      (statusWord t).getLsbD 6 = t.ksvalid ∧ (statusWord t).getLsbD 7 = false := by
  simp only [statusWord, @BitVec.getLsbD_append _ 1, @BitVec.getLsbD_append _ 3]
  simp

theorem statusWord_mode (t : Status) : (statusWord t).extractLsb' 8 3 = modeNumber t.mode := by
  simp [statusWord, @BitVec.extractLsb'_append_eq_of_le _ 1, @BitVec.extractLsb'_append_eq_of_le _ 3,
    @BitVec.extractLsb'_append_eq_right _ 3]

theorem statusWord_reserved (t : Status) : (statusWord t).extractLsb' 11 21 = 0#21 := by
  simp [statusWord, @BitVec.extractLsb'_append_eq_of_le _ 1, @BitVec.extractLsb'_append_eq_of_le _ 3]

theorem modeNumber_le (m : Mode) : (modeNumber m).toNat ≤ 4 := by cases m <;> decide

theorem errNumber_mem (e : ErrCode) : errNumber e ∈ [0#3, 1#3, 2#3, 3#3, 5#3] := by cases e <;> decide

theorem modeOfBits_eq_some_iff (b : BitVec 3) (m : Mode) : modeOfBits b = some m ↔ b = modeNumber m :=
  ⟨modeOfBits_inv, fun h => h ▸ modeOfBits_modeNumber m⟩

/-! ### VARIANT -/

theorem variantWord_flags (v : Variant) :
    (variantWord v).getLsbD 0 = v.skipIp ∧ (variantWord v).getLsbD 1 = v.skipFp ∧
      (variantWord v).getLsbD 2 = v.skipSwap ∧ (variantWord v).getLsbD 3 = v.revKeys ∧
      (variantWord v).getLsbD 4 = v.altShift := by
  simp only [variantWord, @BitVec.getLsbD_append _ 1]
  simp

theorem variantWord_nr (v : Variant) : (variantWord v).extractLsb' 8 5 = v.nr := by
  simp [variantWord, @BitVec.extractLsb'_append_eq_of_le _ 1, @BitVec.extractLsb'_append_eq_of_le _ 3,
    @BitVec.extractLsb'_append_eq_right _ 5]

theorem variantWord_swapr (v : Variant) : (variantWord v).extractLsb' 16 5 = v.swapr := by
  simp [variantWord, @BitVec.extractLsb'_append_eq_of_le _ 1, @BitVec.extractLsb'_append_eq_of_le _ 3,
    @BitVec.extractLsb'_append_eq_of_le _ 5, @BitVec.extractLsb'_append_eq_right _ 5]

/-- Storing the word that a read of VARIANT returns changes nothing. -/
theorem variantOfWord_variantWord (v : Variant) : variantOfWord (variantWord v) = v := by
  obtain ⟨hip, hfp, hswap, hrev, halt⟩ := variantWord_flags v
  simp only [variantOfWord, variantWord_nr, variantWord_swapr, hip, hfp, hswap, hrev, halt]

/-- Every bit of a word of VARIANT that no field covers is 0, bit by bit. -/
theorem variantWord_reserved (v : Variant) : variantWord v &&& 0xFFE0E0E0#32 = 0#32 := by
  refine BitVec.eq_of_getLsbD_eq fun i hi => ?_
  simp only [variantWord, BitVec.getLsbD_and, @BitVec.getLsbD_append _ 1, @BitVec.getLsbD_append _ 3,
    @BitVec.getLsbD_append _ 5]
  interval_cases i <;> simp

/-- What was written to VARIANT reads back with its reserved bits 0, bit by bit. -/
theorem variantWord_variantOfWord (w : Word) : variantWord (variantOfWord w) = w &&& 0x001F1F1F#32 := by
  refine BitVec.eq_of_getLsbD_eq fun i hi => ?_
  simp only [variantWord, variantOfWord, BitVec.getLsbD_and, @BitVec.getLsbD_append _ 1, @BitVec.getLsbD_append _ 3,
    @BitVec.getLsbD_append _ 5]
  interval_cases i <;> simp

/-! ### The statement -/

/-- Settles O14, field by field. -/
theorem statusAndVariantWordsFollowTheLayout : Obligations.StatusAndVariantWordsFollowTheLayout := by
  refine ⟨fun w => ⟨rfl, rfl, rfl, rfl, rfl, rfl, rfl, variantWord_variantOfWord w⟩, fun v => ?_, fun t => ?_,
    ⟨rfl, rfl, rfl, rfl, rfl⟩, ⟨rfl, rfl, rfl, rfl, rfl⟩, modeOfBits_eq_some_iff⟩
  · obtain ⟨hip, hfp, hswap, hrev, halt⟩ := variantWord_flags v
    exact ⟨hip, hfp, hswap, hrev, halt, variantWord_nr v, variantWord_swapr v, variantOfWord_variantWord v,
      variantWord_reserved v⟩
  · obtain ⟨herrs, hpadinv, htrvalid, hksvalid, hbit7⟩ := statusWord_flags t
    exact ⟨statusWord_err t, herrs, hpadinv, htrvalid, hksvalid, hbit7, statusWord_mode t, statusWord_reserved t,
      modeNumber_le _, errNumber_mem _⟩

end Sys2Proof.Machine
end

section
/-! SUPPORT. What each named operation, and so each command, leaves of the host's inputs, and the state after a reset (10_state R36, R38). -/

namespace Sys2Proof.Machine

/-! ### The host's inputs -/

/-- What no command but SRESET changes (10_state R38), and of the model's own fields those that no command changes at all. -/
structure HostInputs where
  key : Block
  ilen : Word
  variant : Variant
  altshift : Word
  ibuf : Memory
  bufBytes : Nat
  pending : List HostEvent
  resp : Response
  epoch : Nat

def State.hostInputs (s : State) : HostInputs :=
  { key := s.key, ilen := s.ilen, variant := s.variant, altshift := s.altshift, ibuf := s.ibuf, bufBytes := s.bufBytes,
    pending := s.pending, resp := s.resp, epoch := s.epoch }

@[simp] theorem State.complete_hostInputs (s : State) : s.complete.hostInputs = s.hostInputs := rfl
@[simp] theorem State.fail_hostInputs (c : ErrCode) (s : State) : (s.fail c).hostInputs = s.hostInputs := rfl
@[simp] theorem State.clearErrors_hostInputs (s : State) : s.clearErrors.hostInputs = s.hostInputs := rfl
@[simp] theorem State.setPadinv_hostInputs (b : Bool) (s : State) : (s.setPadinv b).hostInputs = s.hostInputs := rfl
@[simp] theorem State.setOlen_hostInputs (n : Nat) (s : State) : (s.setOlen n).hostInputs = s.hostInputs := rfl
@[simp] theorem State.drawIv_hostInputs (s : State) : s.drawIv.hostInputs = s.hostInputs := rfl
@[simp] theorem State.startChain_hostInputs (m : Mode) (s : State) : (s.startChain m).hostInputs = s.hostInputs := rfl
@[simp] theorem State.storeKs_hostInputs (b : KsBank) (s : State) : (s.storeKs b).hostInputs = s.hostInputs := rfl
@[simp] theorem State.runBlock_hostInputs (d : Dir) (vp : VariantParams) (s : State) :
    (s.runBlock d vp).hostInputs = s.hostInputs := rfl

@[simp] theorem State.chainStep_hostInputs (m : Mode) (d : Dir) (s : State) :
    (s.chainStep m d).hostInputs = s.hostInputs := by
  rw [State.chainStep_eq]
  rfl

@[simp] theorem encryptBlocks_hostInputs (m : Mode) (o n k : Nat) (s : State) :
    (encryptBlocks m o n k s).hostInputs = s.hostInputs := by
  obtain ⟨_, _, _, _, _, _, h⟩ := encryptBlocks_frame m o n k s
  rw [h]
  rfl

@[simp] theorem decryptBlocks_hostInputs (m : Mode) (o k : Nat) (s : State) :
    (decryptBlocks m o k s).hostInputs = s.hostInputs := by
  obtain ⟨_, _, _, _, _, _, h⟩ := decryptBlocks_frame m o k s
  rw [h]
  rfl

@[simp] theorem State.chooseIv_hostInputs (m : Mode) (riv : Bool) (s : State) :
    (s.chooseIv m riv).hostInputs = s.hostInputs := by
  unfold State.chooseIv
  split <;> rfl

@[simp] theorem State.prependIv_hostInputs (m : Mode) (s : State) : (s.prependIv m).hostInputs = s.hostInputs := by
  unfold State.prependIv
  split <;> rfl

@[simp] theorem State.splitIv_hostInputs (m : Mode) (s : State) : (s.splitIv m).hostInputs = s.hostInputs := by
  unfold State.splitIv
  split <;> rfl

@[simp] theorem State.encryptMessage_hostInputs (m : Mode) (riv : Bool) (s : State) :
    (s.encryptMessage m riv).hostInputs = s.hostInputs := by simp [State.encryptMessage]

@[simp] theorem State.decryptMessage_hostInputs (m : Mode) (len : Nat) (s : State) :
    (s.decryptMessage m len).hostInputs = s.hostInputs := by simp [State.decryptMessage]

/-- No command but SRESET changes the host's inputs. -/
theorem exec_hostInputs {i : Instr} {s t : State} (hi : i ≠ .sreset) (he : exec i s = .next t) :
    t.hostInputs = s.hostInputs := by
  cases i with
  | nop => cases he; simp
  | keyexp => cases he; simp
  | encblk => obtain ⟨-, hx⟩ | ⟨vp, -, hx⟩ := exec_encblk_cases s <;> cases hx.symm.trans he <;> simp
  | decblk => obtain ⟨-, hx⟩ | ⟨vp, -, hx⟩ := exec_decblk_cases s <;> cases hx.symm.trans he <;> simp
  | minit mode => obtain ⟨-, hx⟩ | ⟨m, -, hx⟩ := exec_minit_cases mode s <;> cases hx.symm.trans he <;> simp
  | mblke => cases he; simp
  | mblkd => cases he; simp
  | msgenc mode riv =>
    obtain ⟨-, hx⟩ | ⟨m, -, -, hx⟩ | ⟨m, -, -, hx⟩ := exec_msgenc_cases mode riv s <;> cases hx.symm.trans he <;> simp
  | msgdec mode =>
    obtain ⟨-, hx⟩ | ⟨m, c, -, -, hx⟩ | ⟨m, -, -, -, -, hx⟩ := exec_msgdec_cases mode s <;>
      cases hx.symm.trans he <;> simp
  | ivgen => cases he; simp
  | clrerr => cases he; simp
  | sreset => exact absurd rfl hi

/-! ### Reset -/

theorem KsBank.zero_recs (i : Fin 16) : KsBank.zero.recs[i] = KsRecord.zero := by simp [KsBank.zero]

theorem TrBank.zero_recs (i : Fin 16) : TrBank.zero.recs[i] = TrRecord.zero := by simp [TrBank.zero]

/-- SRESET leaves the reset table, ROUND of every KS record included, which is hardwired (10_state R25, R36). -/
theorem State.softReset_registersAtReset (s : State) : s.softReset.RegistersAtReset where
  err := rfl
  errs := rfl
  padinv := rfl
  trvalid := rfl
  ksvalid := rfl
  mode := rfl
  blkcnt := rfl
  variant := by rw [State.softReset_variant]; decide
  altshift := rfl
  ilen := rfl
  olen := rfl
  key := rfl
  iv := rfl
  din := rfl
  dout := rfl
  chain := rfl
  ksHalves := ⟨rfl, rfl⟩
  ksRecords := KsBank.zero_recs
  ksRound i := by
    have hinfo : readReg s.softReset (.ksInfo i) = ksInfoWord i KsBank.zero.recs[i] := rfl
    rw [hinfo, ksInfoWord_eq, KsBank.zero_recs]
    simp [KsRecord.zero]
  trHeader := ⟨rfl, rfl, rfl, rfl, rfl, rfl⟩
  trRecords := TrBank.zero_recs

/-- A hard reset is a SRESET after which both buffers list nothing, the bus has answered nothing and the free bytes are drawn anew. -/
theorem State.hardReset_eq_softReset (s : State) :
    s.hardReset = State.softReset { s with ibuf := [], obuf := [], resp := .idle, epoch := s.epoch + 1 } := rfl

theorem State.hardReset_registersAtReset (s : State) : s.hardReset.RegistersAtReset :=
  s.hardReset_eq_softReset ▸ State.softReset_registersAtReset _

theorem State.reset_registersAtReset : State.reset.RegistersAtReset := State.softReset_registersAtReset State.reset

/-- A buffer that lists nothing reads as the free bytes of the present epoch (10_state R36). -/
theorem State.ibufByte_of_ibuf_nil {s : State} (h : s.ibuf = []) (a : Nat) : s.ibufByte a = Config.ibufReset s.epoch a := by
  rw [State.ibufByte, h, Memory.read_nil, Option.getD_none]

theorem State.obufByte_of_obuf_nil {s : State} (h : s.obuf = []) (a : Nat) : s.obufByte a = Config.obufReset s.epoch a := by
  rw [State.obufByte, h, Memory.read_nil, Option.getD_none]

/-! ### The statements -/

/-- Settles O60; SRESET, the one exception, resets KEY, ILEN, VARIANT and ALTSHIFT but keeps the rest. -/
theorem commandsLeaveHostInputsAlone : Obligations.CommandsLeaveHostInputsAlone := by
  intro i s t he
  by_cases hi : i = .sreset
  · subst hi
    cases he
    exact ⟨fun h => absurd rfl h, rfl, rfl, rfl, rfl, rfl⟩
  · have h := exec_hostInputs hi he
    simp only [State.hostInputs, HostInputs.mk.injEq] at h
    obtain ⟨hkey, hilen, hvariant, haltshift, hown⟩ := h
    exact ⟨fun _ => ⟨hkey, hilen, hvariant, haltshift⟩, hown⟩

/-- Settles O15: all three resets are SRESET up to the buffers and the model's own fields. -/
theorem resetLeavesTheTableOfValues : Obligations.ResetLeavesTheTableOfValues := by
  refine ⟨⟨State.reset_registersAtReset, fun a =>
      ⟨State.ibufByte_of_ibuf_nil rfl a, State.obufByte_of_obuf_nil rfl a⟩⟩, fun s rest => ?_, fun s => ?_⟩
  · exact ⟨_, step_hardReset s rest, State.hardReset_registersAtReset _, rfl, rfl, fun a =>
      ⟨State.ibufByte_of_ibuf_nil rfl a, State.obufByte_of_obuf_nil rfl a⟩⟩
  · exact ⟨s.softReset, rfl, s.softReset_registersAtReset, fun _ => ⟨rfl, rfl⟩, rfl, rfl, rfl, rfl, rfl⟩

end Sys2Proof.Machine
end

section
/-! SUPPORT. That no command looks at the flags, the banks, DOUT or OLEN that an earlier command left: two runs from states that differ only there stay alike through every named operation (10_state R17, R38; 41_key_schedule R123). -/

namespace Sys2Proof.Machine

/-- `s` with other values of what no command looks at: the flags of STATUS but MODE, both banks, DOUT and OLEN. -/
def State.withLeft (flags : Status) (ks : KsBank) (tr : TrBank) (dout : Block) (olen : Word) (s : State) : State :=
  { s with ks := ks, tr := tr, dout := dout, olen := olen, status := { flags with mode := s.status.mode } }

/-- Two runs, from `s` to `t` and from `s'` to `t'`, that have computed the same: `t'` is `t` but for what no command looks at, and each of KS, TR, DOUT and OLEN is the same in both or not yet written in either. -/
structure SameRun (s s' t t' : State) : Prop where
  seen : t' = t.withLeft t'.status t'.ks t'.tr t'.dout t'.olen
  ks : t'.ks = t.ks ∨ (t.ks = s.ks ∧ t'.ks = s'.ks)
  tr : t'.tr = t.tr ∨ (t.tr = s.tr ∧ t'.tr = s'.tr)
  dout : t'.dout = t.dout ∨ (t.dout = s.dout ∧ t'.dout = s'.dout)
  olen : t'.olen = t.olen ∨ (t.olen = s.olen ∧ t'.olen = s'.olen)

/-- Two runs that have done nothing yet. -/
theorem SameRun.start {s s' : State} (h : s' = s.withLeft s'.status s'.ks s'.tr s'.dout s'.olen) : SameRun s s' s s' :=
  ⟨h, .inr ⟨rfl, rfl⟩, .inr ⟨rfl, rfl⟩, .inr ⟨rfl, rfl⟩, .inr ⟨rfl, rfl⟩⟩

namespace SameRun

variable {s s' t t' : State} (h : SameRun s s' t t')
include h

/-! ### What both runs see alike -/

/-- Any function gives the same on `t'` as on `t` with what was left in `t'`; where it looks at none of that, the same as on `t`. -/
theorem seen_congr {α : Type} (f : State → α) : f t' = f (t.withLeft t'.status t'.ks t'.tr t'.dout t'.olen) :=
  congrArg f h.seen

theorem mode_eq : t'.status.mode = t.status.mode := h.seen_congr (·.status.mode)
theorem blkcnt_eq : t'.blkcnt = t.blkcnt := h.seen_congr State.blkcnt
theorem ilen_eq : t'.ilen = t.ilen := h.seen_congr State.ilen
theorem key_eq : t'.key = t.key := h.seen_congr State.key
theorem iv_eq : t'.iv = t.iv := h.seen_congr State.iv
theorem din_eq : t'.din = t.din := h.seen_congr State.din
theorem chain_eq : t'.chain = t.chain := h.seen_congr State.chain
theorem bufBytes_eq : t'.bufBytes = t.bufBytes := h.seen_congr State.bufBytes
theorem ibufByte_eq (a : Nat) : t'.ibufByte a = t.ibufByte a := h.seen_congr (·.ibufByte a)
theorem ibufRead_eq (a n : Nat) : t'.ibufRead a n = t.ibufRead a n := h.seen_congr (·.ibufRead a n)
theorem variantParams_eq : variantParams t' = variantParams t := h.seen_congr variantParams
theorem unpad_eq (len : Nat) : unpad t' len = unpad t len := h.seen_congr (unpad · len)

theorem chainCore_eq (m : Mode) (d : Dir) : chainCore m d t' = chainCore m d t :=
  chainCore_congr h.din_eq h.chain_eq h.key_eq

/-! ### The named operations -/

theorem complete : SameRun s s' t.complete t'.complete := { h with seen := h.seen_congr State.complete }
theorem fail (c : ErrCode) : SameRun s s' (t.fail c) (t'.fail c) := { h with seen := h.seen_congr (State.fail c) }
theorem clearErrors : SameRun s s' t.clearErrors t'.clearErrors := { h with seen := h.seen_congr State.clearErrors }
theorem setPadinv (b : Bool) : SameRun s s' (t.setPadinv b) (t'.setPadinv b) :=
  { h with seen := h.seen_congr (State.setPadinv b) }
theorem setIv (v : Block) : SameRun s s' (t.setIv v) (t'.setIv v) := { h with seen := h.seen_congr (State.setIv v) }
theorem drawIv : SameRun s s' t.drawIv t'.drawIv := { h with seen := h.seen_congr State.drawIv }
theorem setDin (v : Block) : SameRun s s' (t.setDin v) (t'.setDin v) := { h with seen := h.seen_congr (State.setDin v) }
theorem setChain (v : Block) : SameRun s s' (t.setChain v) (t'.setChain v) :=
  { h with seen := h.seen_congr (State.setChain v) }
theorem countBlock : SameRun s s' t.countBlock t'.countBlock := { h with seen := h.seen_congr State.countBlock }
theorem startChain (m : Mode) : SameRun s s' (t.startChain m) (t'.startChain m) :=
  { h with seen := h.seen_congr (State.startChain m) }
theorem obufWrite (a : Nat) (v : Block) : SameRun s s' (t.obufWrite a v) (t'.obufWrite a v) :=
  { h with seen := h.seen_congr (State.obufWrite a v) }

/-! The writes of KS, TR, DOUT and OLEN: from here on the register is the same in both runs. -/

theorem setDout (v : Block) : SameRun s s' (t.setDout v) (t'.setDout v) :=
  { h with seen := h.seen_congr (State.setDout v), dout := .inl rfl }
theorem setOlen (n : Nat) : SameRun s s' (t.setOlen n) (t'.setOlen n) :=
  { h with seen := h.seen_congr (State.setOlen n), olen := .inl rfl }
theorem storeKs (b : KsBank) : SameRun s s' (t.storeKs b) (t'.storeKs b) :=
  { h with seen := h.seen_congr (State.storeKs b), ks := .inl rfl }
theorem storeTr (b : TrBank) : SameRun s s' (t.storeTr b) (t'.storeTr b) :=
  { h with seen := h.seen_congr (State.storeTr b), tr := .inl rfl }
theorem softReset : SameRun s s' t.softReset t'.softReset :=
  ⟨h.seen_congr State.softReset, .inl rfl, .inl rfl, .inl rfl, .inl rfl⟩

/-! ### One core invocation, one chain step, whole messages -/

theorem runBlock (d : Dir) (vp : VariantParams) : SameRun s s' (t.runBlock d vp) (t'.runBlock d vp) := by
  unfold State.runBlock
  rw [h.din_eq, h.key_eq]
  exact (((h.storeKs _).setDout _).storeTr _).complete

theorem chainStep (m : Mode) (d : Dir) : SameRun s s' (t.chainStep m d) (t'.chainStep m d) := by
  have hstored := ((h.storeKs (chainCore m d t).ks).setDout
    (chainResult m d t.din t.chain (chainCore m d t).out).1).setChain
    (chainResult m d t.din t.chain (chainCore m d t).out).2
  unfold State.chainStep
  rw [h.chainCore_eq, h.din_eq, h.chain_eq, h.blkcnt_eq]
  by_cases h0 : t.blkcnt = 0#32
  · simp only [if_pos h0]
    exact (hstored.storeTr _).countBlock
  · simp only [if_neg h0]
    exact hstored.countBlock

theorem chainStep_dout_eq (m : Mode) (d : Dir) : (t'.chainStep m d).dout = (t.chainStep m d).dout := by
  rw [State.chainStep_dout, State.chainStep_dout, h.chainCore_eq, h.din_eq, h.chain_eq]

/-- One pass of a message loop. -/
theorem pass (m : Mode) (d : Dir) (a : Nat) (b : Block) :
    SameRun s s' (((t.setDin b).chainStep m d).obufWrite a ((t.setDin b).chainStep m d).dout)
      (((t'.setDin b).chainStep m d).obufWrite a ((t'.setDin b).chainStep m d).dout) := by
  rw [(h.setDin b).chainStep_dout_eq]
  exact ((h.setDin b).chainStep m d).obufWrite a _

theorem encryptBlocks (m : Mode) (o n k : Nat) :
    SameRun s s' (encryptBlocks m o n k t) (encryptBlocks m o n k t') := by
  induction k with
  | zero => exact h
  | succ k ih =>
    rw [encryptBlocks_succ, encryptBlocks_succ, padBlock_congr ih.ibufByte_eq]
    exact ih.pass m .enc _ _

theorem decryptBlocks (m : Mode) (o k : Nat) : SameRun s s' (decryptBlocks m o k t) (decryptBlocks m o k t') := by
  induction k with
  | zero => exact h
  | succ k ih =>
    rw [decryptBlocks_succ, decryptBlocks_succ, ih.ibufRead_eq]
    exact ih.pass m .dec _ _

theorem chooseIv (m : Mode) (riv : Bool) : SameRun s s' (t.chooseIv m riv) (t'.chooseIv m riv) := by
  unfold State.chooseIv
  split
  · exact h.drawIv
  · exact h

theorem prependIv (m : Mode) : SameRun s s' (t.prependIv m) (t'.prependIv m) := by
  unfold State.prependIv
  rw [h.iv_eq]
  split
  · exact h.obufWrite 0 t.iv
  · exact h

theorem splitIv (m : Mode) : SameRun s s' (t.splitIv m) (t'.splitIv m) := by
  unfold State.splitIv
  rw [h.ibufRead_eq]
  split
  · exact h.setIv _
  · exact h

theorem encryptMessage (m : Mode) (riv : Bool) : SameRun s s' (t.encryptMessage m riv) (t'.encryptMessage m riv) := by
  unfold State.encryptMessage
  rw [h.ilen_eq]
  exact ((((((h.chooseIv m riv).startChain m).complete).prependIv m).encryptBlocks m _ _ _).setOlen _).complete

theorem decryptMessage (m : Mode) (len : Nat) :
    SameRun s s' (t.decryptMessage m len) (t'.decryptMessage m len) := by
  have hblocks := (((h.splitIv m).startChain m).complete).decryptBlocks m (bodyOffset m) (len / 8)
  unfold State.decryptMessage
  simp only [hblocks.unpad_eq]
  exact ((hblocks.setOlen _).setPadinv _).complete

end SameRun

/-! ### Commands -/

@[simp] theorem State.runBlock_status_err (d : Dir) (vp : VariantParams) (s : State) :
    (s.runBlock d vp).status.err = .completed := rfl
@[simp] theorem State.encryptMessage_status_err (m : Mode) (riv : Bool) (s : State) :
    (s.encryptMessage m riv).status.err = .completed := rfl
@[simp] theorem State.decryptMessage_status_err (m : Mode) (len : Nat) (s : State) :
    (s.decryptMessage m len).status.err = .completed := rfl

/-- Both commands have a next state, and these have computed the same, STATUS.ERR included. -/
def SameOutcome (s s' : State) (o o' : Host.Outcome State Fault Refusal) : Prop :=
  ∃ t t', o = .next t ∧ o' = .next t' ∧ SameRun s s' t t' ∧ t'.status.err = t.status.err

theorem SameRun.outcome_complete {s s' t t' : State} (h : SameRun s s' t t') :
    SameOutcome s s' (.next t.complete) (.next t'.complete) := ⟨_, _, rfl, rfl, h.complete, rfl⟩

theorem SameRun.outcome_fail {s s' t t' : State} (h : SameRun s s' t t') (c : ErrCode) :
    SameOutcome s s' (.next (t.fail c)) (.next (t'.fail c)) := ⟨_, _, rfl, rfl, h.fail c, rfl⟩

namespace SameRun

variable {s s' : State} (h : SameRun s s' s s')
include h

theorem execKeyexp_same : SameOutcome s s' (execKeyexp s) (execKeyexp s') := by
  unfold execKeyexp
  rw [h.key_eq]
  exact (h.storeKs _).outcome_complete

theorem execEncblk_same : SameOutcome s s' (execEncblk s) (execEncblk s') := by
  unfold execEncblk
  rw [h.variantParams_eq]
  cases variantParams s with
  | none => exact h.outcome_fail _
  | some vp => exact ⟨_, _, rfl, rfl, h.runBlock .enc vp, by simp⟩

theorem execDecblk_same : SameOutcome s s' (execDecblk s) (execDecblk s') := by
  unfold execDecblk
  rw [h.variantParams_eq]
  cases variantParams s with
  | none => exact h.outcome_fail _
  | some vp => exact ⟨_, _, rfl, rfl, h.runBlock .dec vp, by simp⟩

theorem execMinit_same (mode : BitVec 3) : SameOutcome s s' (execMinit mode s) (execMinit mode s') := by
  unfold execMinit
  cases modeOfBits mode with
  | none => exact h.outcome_fail _
  | some m => exact (h.startChain m).outcome_complete

theorem execMblke_same : SameOutcome s s' (execMblke s) (execMblke s') := by
  unfold execMblke
  rw [h.mode_eq]
  exact (h.chainStep _ _).outcome_complete

theorem execMblkd_same : SameOutcome s s' (execMblkd s) (execMblkd s') := by
  unfold execMblkd
  rw [h.mode_eq]
  exact (h.chainStep _ _).outcome_complete

theorem execMsgenc_same (mode : BitVec 3) (riv : Bool) :
    SameOutcome s s' (execMsgenc mode riv s) (execMsgenc mode riv s') := by
  unfold execMsgenc
  rw [h.bufBytes_eq, h.ilen_eq]
  cases modeOfBits mode with
  | none => exact h.outcome_fail _
  | some m =>
    dsimp only
    split
    · exact h.outcome_fail _
    · exact ⟨_, _, rfl, rfl, h.encryptMessage m riv, by simp⟩

theorem execMsgdec_same (mode : BitVec 3) : SameOutcome s s' (execMsgdec mode s) (execMsgdec mode s') := by
  unfold execMsgdec
  rw [h.bufBytes_eq, h.ilen_eq]
  cases modeOfBits mode with
  | none => exact h.outcome_fail _
  | some m =>
    dsimp only
    split
    · exact h.outcome_fail _
    split
    · exact h.outcome_fail _
    split
    · exact h.outcome_fail _
    · exact ⟨_, _, rfl, rfl, h.decryptMessage m _, by simp⟩

/-- No command looks at what an earlier one left in the flags, the banks, DOUT and OLEN. -/
theorem exec_same (i : Instr) : SameOutcome s s' (exec i s) (exec i s') := by
  cases i with
  | nop => exact h.outcome_complete
  | keyexp => exact h.execKeyexp_same
  | encblk => exact h.execEncblk_same
  | decblk => exact h.execDecblk_same
  | minit mode => exact h.execMinit_same mode
  | mblke => exact h.execMblke_same
  | mblkd => exact h.execMblkd_same
  | msgenc mode riv => exact h.execMsgenc_same mode riv
  | msgdec mode => exact h.execMsgdec_same mode
  | ivgen => exact h.drawIv.outcome_complete
  | clrerr => exact ⟨_, _, rfl, rfl, h.clearErrors, rfl⟩
  | sreset => exact ⟨_, _, rfl, rfl, h.softReset, rfl⟩

end SameRun

/-! ### The statement -/

/-- Settles O58: two runs that start alike but for what no command looks at stay so through the command (`SameRun.exec_same`). -/
theorem commandsIgnoreFlagsBanksAndOutputs : Obligations.CommandsIgnoreFlagsBanksAndOutputs := by
  intro i s s' t hs he
  obtain ⟨u, t', hu, ht', hrun, herr⟩ := (SameRun.start hs).exec_same i
  cases hu.symm.trans he
  refine ⟨t', ht', ?_, hrun.ks, hrun.tr, hrun.dout, hrun.olen⟩
  rw [← herr]
  exact hrun.seen

end Sys2Proof.Machine
end


section
/-! SUPPORT. Which host accesses are performed and which refused, what an access to a buffer window packs and unpacks, and the two statements about them (10_state R31, R39; 20_memory R50 to R56). -/

namespace Sys2Proof.Machine

/-! ### The words of the buffer windows -/

/-- The bytes of a word, the lowest offset in bits 31:24 (20_memory R51). -/
theorem bytesValue_four (f : Nat → Byte) (a : Nat) :
    bytesValue f a 4 = f a ++ f (a + 1) ++ f (a + 2) ++ f (a + 3) := by
  have hfirst : bytesValue f a 1 = f a := BitVec.zero_width_append _ _
  have hrest : bytesValue f a 4 = bytesValue f a 1 ++ f (a + 1) ++ f (a + 2) ++ f (a + 3) := rfl
  rw [hrest, hfirst]

/-- The four bytes that a host write of `w` leaves at its offset of IBUF (20_memory R52). -/
theorem State.ibufByte_ibufWrite_bytes (s : State) (a : Nat) (w : Word) :
    (s.ibufWrite a w).ibufByte a = w.extractLsb' 24 8 ∧ (s.ibufWrite a w).ibufByte (a + 1) = w.extractLsb' 16 8 ∧
    (s.ibufWrite a w).ibufByte (a + 2) = w.extractLsb' 8 8 ∧ (s.ibufWrite a w).ibufByte (a + 3) = w.extractLsb' 0 8 :=
  ⟨s.ibufByte_ibufWrite (j := 0) w (by decide), s.ibufByte_ibufWrite (j := 1) w (by decide),
    s.ibufByte_ibufWrite (j := 2) w (by decide), s.ibufByte_ibufWrite (j := 3) w (by decide)⟩

/-! ### Every command answers a next state -/

theorem exec_next (i : Instr) (s : State) : ∃ t, exec i s = .next t := by
  cases i with
  | encblk => obtain ⟨-, h⟩ | ⟨vp, -, h⟩ := exec_encblk_cases s <;> exact ⟨_, h⟩
  | decblk => obtain ⟨-, h⟩ | ⟨vp, -, h⟩ := exec_decblk_cases s <;> exact ⟨_, h⟩
  | minit mode => obtain ⟨-, h⟩ | ⟨m, -, h⟩ := exec_minit_cases mode s <;> exact ⟨_, h⟩
  | msgenc mode riv =>
    obtain ⟨-, h⟩ | ⟨m, -, -, h⟩ | ⟨m, -, -, h⟩ := exec_msgenc_cases mode riv s <;> exact ⟨_, h⟩
  | msgdec mode =>
    obtain ⟨-, h⟩ | ⟨m, c, -, -, h⟩ | ⟨m, -, -, -, -, h⟩ := exec_msgdec_cases mode s <;> exact ⟨_, h⟩
  | nop | keyexp | mblke | mblkd | ivgen | clrerr | sreset => exact ⟨_, rfl⟩

/-- A command word answers one next state whatever is pending and whatever the bus answered last. -/
theorem execWord_next (w : Word) (s : State) :
    ∃ t : State, ∀ p r, execWord w { s with pending := p, resp := r } = .next { t with pending := p, resp := r } := by
  cases hd : decode w with
  | ok i =>
    obtain ⟨t, ht⟩ := exec_next i s
    exact ⟨t, fun p r => (execWord_of_decode hd _).trans (exec_pending_resp ht p r)⟩
  | error e => exact ⟨s.fail .illegalCommand, fun p r => execWord_of_illegal hd _⟩

/-! ### The writable registers -/

/-- The registers that the map marks W or R/W (10_state R31). -/
def Reg.writable (r : Reg) : Bool :=
  match r with
  | .cmd | .variant | .altshift | .ilen | .keyHi | .keyLo | .ivHi | .ivLo | .dinHi | .dinLo | .ibufWord _ => true
  | _ => false

/-- Apart from CMD, which runs a command, the writable registers are those that a host write replaces. -/
theorem writeReg_isSome {r : Reg} (hc : r ≠ .cmd) (s : State) (w : Word) : (writeReg s r w).isSome = r.writable := by
  cases r with
  | cmd => exact absurd rfl hc
  | _ => rfl

theorem locateKsField_readOnly {i : Fin 16} {field : Nat} {r : Reg} (h : locateKsField i field = some r) :
    r.writable = false := by
  unfold locateKsField at h
  split at h <;> cases h <;> rfl

theorem locateTrField_readOnly {i : Fin 16} {field : Nat} {r : Reg} (h : locateTrField i field = some r) :
    r.writable = false := by
  unfold locateTrField at h
  split at h <;> cases h <;> rfl

/-! ### The offsets that the map lists -/

/-- A window of a legal BUF_BYTES holds whole words and ends below the next window (00_scope R6). -/
theorem legalBufBytes.word_fits {n a : Nat} (hn : legalBufBytes n) (ha : a < n) (haligned : a % 4 = 0) :
    a + 3 < n ∧ a < 0x10000 := by
  obtain ⟨hmult, -, hmax⟩ := hn
  omega

/-- An offset reaches a register exactly where the map lists it. -/
theorem locate_isSome_iff {bufBytes offset : Nat} (hb : legalBufBytes bufBytes) :
    (∃ r, locate bufBytes offset = some r) ↔ listedOffset bufBytes offset := by
  constructor
  · rintro ⟨r, h⟩
    obtain ⟨-, hr⟩ | ⟨rfl, -⟩ | ⟨rfl, -⟩ | ⟨i, f, rfl, hr⟩ | ⟨i, f, rfl, hr⟩ | ⟨a, rfl, ha, hfits, -⟩ |
      ⟨a, rfl, ha, hfits, -⟩ := locate_inv h
    · exact .inl (locateControl_inv hr)
    · exact .inl (by decide)
    · exact .inl (by decide)
    · exact .inr (.inl ⟨i + 1, f, by omega, by omega, locateKsField_inv hr, rfl⟩)
    · exact .inr (.inr (.inl ⟨i, f, i.isLt, locateTrField_inv hr, rfl⟩))
    · exact .inr (.inr (.inr (.inl ⟨a, by omega, ha, rfl⟩)))
    · exact .inr (.inr (.inr (.inr ⟨a, by omega, ha, rfl⟩)))
  · rintro (h | ⟨r, f, hr1, hr16, hf, rfl⟩ | ⟨i, f, hi, hf, rfl⟩ | ⟨a, ha, haligned, rfl⟩ | ⟨a, ha, haligned, rfl⟩)
    · have hcontrol : ∀ f ∈ listedControl, f = 0x200 ∨ f = 0x204 ∨ (locateControl f).isSome := by decide
      obtain rfl | rfl | h := hcontrol offset h
      · exact ⟨.ksC0, rfl⟩
      · exact ⟨.ksD0, rfl⟩
      · exact ⟨_, locate_of_locateControl (Option.eq_some_of_isSome h) _⟩
    · obtain ⟨i, rfl⟩ := Nat.exists_eq_add_of_le' hr1
      have hfield : ∀ (i : Fin 16), ∀ f ∈ [0x00, 0x04, 0x08, 0x0C, 0x10], (locateKsField i f).isSome := by decide
      exact ⟨_, locate_of_locateKsField (i := ⟨i, by omega⟩) (Option.eq_some_of_isSome (hfield _ f hf)) _⟩
    · have hfield : ∀ (i : Fin 16),
          ∀ f ∈ [0x00, 0x04, 0x08, 0x0C, 0x10, 0x14, 0x18, 0x1C, 0x20, 0x24, 0x28, 0x2C],
            (locateTrField i f).isSome := by decide
      exact ⟨_, locate_of_locateTrField (i := ⟨i, hi⟩) (Option.eq_some_of_isSome (hfield _ f hf)) _⟩
    · obtain ⟨hfits, hwindow⟩ := hb.word_fits ha haligned
      exact ⟨_, locate_ibuf haligned hfits hwindow⟩
    · obtain ⟨hfits, hwindow⟩ := hb.word_fits ha haligned
      exact ⟨_, locate_obuf haligned hfits hwindow⟩

/-- An offset reaches a writable register exactly where the map marks it W or R/W. -/
theorem locate_writable_iff {bufBytes offset : Nat} (hb : legalBufBytes bufBytes) :
    (∃ r, locate bufBytes offset = some r ∧ r.writable = true) ↔ writableOffset bufBytes offset := by
  constructor
  · rintro ⟨r, h, hw⟩
    obtain ⟨-, hr⟩ | ⟨-, rfl⟩ | ⟨-, rfl⟩ | ⟨i, f, -, hr⟩ | ⟨i, f, -, hr⟩ | ⟨a, rfl, ha, hfits, -⟩ |
      ⟨a, -, -, -, rfl⟩ := locate_inv h
    · have hcontrol : ∀ f ∈ listedControl, (locateControl f).any Reg.writable = true →
          f ∈ [0x00, 0x0C, 0x10, 0x14, 0x20, 0x24, 0x28, 0x2C, 0x30, 0x34] := by decide
      exact .inl (hcontrol offset (locateControl_inv hr) ((Option.any_eq_true ..).mpr ⟨r, hr, hw⟩))
    · cases hw
    · cases hw
    · cases (locateKsField_readOnly hr).symm.trans hw
    · cases (locateTrField_readOnly hr).symm.trans hw
    · exact .inr ⟨a, by omega, ha, rfl⟩
    · cases hw
  · rintro (h | ⟨a, ha, haligned, rfl⟩)
    · have hcontrol : ∀ f ∈ [0x00, 0x0C, 0x10, 0x14, 0x20, 0x24, 0x28, 0x2C, 0x30, 0x34],
          (locateControl f).any Reg.writable = true := by decide
      obtain ⟨r, hr, hw⟩ := (Option.any_eq_true ..).mp (hcontrol offset h)
      exact ⟨r, locate_of_locateControl hr _, hw⟩
    · obtain ⟨hfits, hwindow⟩ := hb.word_fits ha haligned
      exact ⟨_, locate_ibuf haligned hfits hwindow, rfl⟩

/-! ### Performed and refused accesses -/

theorem target_eq_some_iff {s : State} {width offset : Nat} {r : Reg} :
    target s width offset = some r ↔ width = 32 ∧ locate s.bufBytes offset = some r := by
  unfold target
  split <;> simp [*]

/-- A write that reaches CMD runs the word in the state in which the write is acknowledged. -/
theorem step_write_cmd {s : State} {offset : Nat} (h : locate s.bufBytes offset = some .cmd) (w : Word)
    (rest : List HostEvent) :
    step { s with pending := .write 32 offset w :: rest } = execWord w { s with pending := rest, resp := .ack } := by
  have ht : target { s with pending := rest } 32 offset = some .cmd := h
  rw [step_write, busWrite, ht]
  rfl

/-- A write that reaches a writable register is performed. -/
theorem writeGives_of_writable {s : State} {offset : Nat} {r : Reg} (h : locate s.bufBytes offset = some r)
    (hr : r.writable = true) (w : Word) : ∃ t, writeGives s offset w t := by
  by_cases hc : r = .cmd
  · subst hc
    obtain ⟨t, ht⟩ := execWord_next w s
    exact ⟨t, fun rest => (step_write_cmd h w rest).trans (ht rest .ack)⟩
  · have hsome := writeReg_isSome hc s w
    rw [hr] at hsome
    exact ⟨_, writeGives_of_locate h hc (Option.eq_some_of_isSome hsome)⟩

/-- A write that is not of a word or reaches no writable register is refused. -/
theorem refusesAccess_write_of_not_writable {s : State} {width offset : Nat}
    (h : ∀ r, target s width offset = some r → r.writable = false) (w : Word) :
    refusesAccess s (.write width offset w) := by
  cases ht : target s width offset with
  | none => exact refusesAccess_write ht
  | some r =>
    have hro := h r ht
    have hc : r ≠ .cmd := by rintro rfl; cases hro
    have hnone : writeReg s r w = none := by
      rw [← Option.isNone_iff_eq_none, ← Option.not_isSome, writeReg_isSome hc, hro]
      rfl
    obtain ⟨rfl, hl⟩ := target_eq_some_iff.mp ht
    exact refusesAccess_readOnly hl hc hnone

/-! ### The statements -/

/-- Settles O11: a window word is `bytesValue` of its four bytes, and a write of IBUF is `State.ibufWrite`. -/
theorem bufferWindowsPackBigEndian : Obligations.BufferWindowsPackBigEndian := by
  intro s k hb hk
  obtain ⟨hfits, hwindow⟩ := hb.word_fits (a := 4 * k) (by omega) (by omega)
  have hib : locate s.bufBytes (0x10000 + 4 * k) = some (.ibufWord (4 * k)) := locate_ibuf (by omega) hfits hwindow
  have hob : locate s.bufBytes (0x20000 + 4 * k) = some (.obufWord (4 * k)) := locate_obuf (by omega) hfits hwindow
  refine ⟨?_, ?_, fun w => ?_⟩
  · rw [← bytesValue_four]
    exact readsAs_of_locate hib
  · rw [← bytesValue_four]
    exact readsAs_of_locate hob
  · obtain ⟨h0, h1, h2, h3⟩ := s.ibufByte_ibufWrite_bytes (4 * k) w
    exact ⟨s.ibufWrite (4 * k) w, writeGives_of_locate hib nofun rfl, rfl, h0, h1, h2, h3,
      fun a ha => s.ibufByte_ibufWrite_other w ha, fun a => s.obufByte_ibufWrite (4 * k) a w⟩

/-- Settles O12: the map's listed and writable offsets are those at which `locate` answers a register, and a writable one. -/
theorem refusedAccessesChangeNothing : Obligations.RefusedAccessesChangeNothing := by
  intro s width offset w hb
  refine ⟨?_, fun hno => ?_, ?_, fun hno => ?_⟩
  · rintro ⟨-, hl⟩
    obtain ⟨r, hr⟩ := (locate_isSome_iff hb).mpr hl
    exact ⟨_, readsAs_of_locate hr⟩
  · refine refusesAccess_read (Option.eq_none_iff_forall_ne_some.mpr fun r ht => ?_)
    obtain ⟨hwidth, hr⟩ := target_eq_some_iff.mp ht
    exact hno ⟨hwidth, (locate_isSome_iff hb).mp ⟨r, hr⟩⟩
  · rintro ⟨-, hl⟩
    obtain ⟨r, hr, hwritable⟩ := (locate_writable_iff hb).mpr hl
    exact writeGives_of_writable hr hwritable w
  · refine refusesAccess_write_of_not_writable (fun r ht => ?_) w
    obtain ⟨hwidth, hr⟩ := target_eq_some_iff.mp ht
    exact Bool.eq_false_iff.mpr fun hwritable => hno ⟨hwidth, (locate_writable_iff hb).mp ⟨r, hr, hwritable⟩⟩

end Sys2Proof.Machine
end

section
/-! SUPPORT. The decoder and the encoder as functions of the word's fields, and the statements about command words (30_encoding R71 to R77). -/

namespace Sys2Proof

/-! ### The fields of a word -/

theorem opcField_toNat (w : Word) : (opcField w).toNat = w.toNat % 2 ^ 8 := by
  simp [opcField]

theorem modeField_toNat (w : Word) : (modeField w).toNat = w.toNat / 2 ^ 8 % 2 ^ 3 := by
  rw [modeField, BitVec.extractLsb'_toNat, Nat.shiftRight_eq_div_pow]

theorem rivField_eq (w : Word) : rivField w = decide (w.toNat / 2 ^ 11 % 2 = 1) := by
  rw [rivField, BitVec.getLsbD, Nat.testBit_eq_decide_div_mod_eq]

/-- The bits of a word from bit `start` on. -/
theorem bitsFrom_toNat (w : Word) (start len : Nat) :
    (w.extractLsb' start len).toNat = w.toNat / 2 ^ start % 2 ^ len := by
  rw [BitVec.extractLsb'_toNat, Nat.shiftRight_eq_div_pow]

/-- OPC, MODE, RIV and the bits above them are the whole word (R71). -/
theorem word_ext {w v : Word} (hopc : opcField w = opcField v) (hmode : modeField w = modeField v)
    (hriv : rivField w = rivField v) (hhigh : w.extractLsb' 12 20 = v.extractLsb' 12 20) : w = v := by
  rw [← BitVec.toNat_inj] at hopc hmode hhigh ⊢
  rw [opcField_toNat, opcField_toNat] at hopc
  rw [modeField_toNat, modeField_toNat] at hmode
  rw [rivField_eq, rivField_eq, decide_eq_decide] at hriv
  rw [bitsFrom_toNat, bitsFrom_toNat] at hhigh
  omega

/-- The must-be-zero bits of format M are RIV's bit and the bits above it (R71). -/
theorem bitsFrom11_eq_zero_iff (w : Word) :
    w.extractLsb' 11 21 = 0#21 ↔ rivField w = false ∧ w.extractLsb' 12 20 = 0#20 := by
  rw [← BitVec.toNat_inj, ← BitVec.toNat_inj, bitsFrom_toNat, bitsFrom_toNat, rivField_eq, decide_eq_false_iff_not,
    BitVec.toNat_zero, BitVec.toNat_zero]
  omega

/-- The must-be-zero bits of format Z are MODE's bits and those of format M (R71). -/
theorem bitsFrom8_eq_zero_iff (w : Word) :
    w.extractLsb' 8 24 = 0#24 ↔ modeField w = 0#3 ∧ w.extractLsb' 11 21 = 0#21 := by
  rw [← BitVec.toNat_inj, ← BitVec.toNat_inj, ← BitVec.toNat_inj, bitsFrom_toNat, bitsFrom_toNat, modeField_toNat,
    BitVec.toNat_zero, BitVec.toNat_zero, BitVec.toNat_zero]
  omega

theorem rivField_and (w v : Word) : rivField (w &&& v) = (rivField w && rivField v) := BitVec.getLsbD_and

/-! ### A word with the fields of a command -/

/-- `w` carries OPC, MODE and RIV of `i`, and zeros above them. -/
structure HasFields (w : Word) (i : Instr) : Prop where
  opc : opcField w = i.opc
  mode : modeField w = i.modeBits
  riv : rivField w = i.rivBit
  high : w.extractLsb' 12 20 = 0#20

theorem fieldPlacement (i : Instr) : Laws.FieldPlacement.Statement i :=
  match i with
  | .nop => Laws.FieldPlacement.nop
  | .keyexp => Laws.FieldPlacement.keyexp
  | .encblk => Laws.FieldPlacement.encblk
  | .decblk => Laws.FieldPlacement.decblk
  | .minit mode => Laws.FieldPlacement.minit mode
  | .mblke => Laws.FieldPlacement.mblke
  | .mblkd => Laws.FieldPlacement.mblkd
  | .msgenc mode riv => Laws.FieldPlacement.msgenc mode riv
  | .msgdec mode => Laws.FieldPlacement.msgdec mode
  | .ivgen => Laws.FieldPlacement.ivgen
  | .clrerr => Laws.FieldPlacement.clrerr
  | .sreset => Laws.FieldPlacement.sreset

theorem hasFields_encode (i : Instr) : HasFields (encode i) i := by
  obtain ⟨hopc, hmode, hriv, hhigh⟩ := fieldPlacement i
  exact ⟨hopc, hmode, hriv, hhigh⟩

/-- A command's fields determine its word. -/
theorem HasFields.encode_eq {w : Word} {i : Instr} (h : HasFields w i) : encode i = w := by
  have he := hasFields_encode i
  exact word_ext (he.opc.trans h.opc.symm) (he.mode.trans h.mode.symm) (he.riv.trans h.riv.symm)
    (he.high.trans h.high.symm)

theorem Instr.wellFormed_iff (i : Instr) : i.WellFormed ↔ legalMode i.modeBits := by
  cases i <;> simp [Instr.modeBits]

/-! ### The decoder, format by format -/

theorem decodeZ_eq_ok_iff {w : Word} {i j : Instr} :
    decodeZ w i = .ok j ↔ modeField w = 0#3 ∧ rivField w = false ∧ w.extractLsb' 12 20 = 0#20 ∧ i = j := by
  have hzero := bitsFrom8_eq_zero_iff w
  rw [bitsFrom11_eq_zero_iff] at hzero
  rw [decodeZ]
  split <;> simp_all

theorem decodeMode_of_legal {w : Word} (h : legalMode (modeField w)) : decodeMode w = .ok (modeField w) :=
  if_neg (Nat.not_lt.mpr h)

theorem decodeMode_of_reserved {w : Word} (h : ¬ legalMode (modeField w)) :
    decodeMode w = .error (.reservedMode (modeField w)) :=
  if_pos (Nat.not_le.mp h)

theorem decodeM_eq_ok_iff {w : Word} {build : BitVec 3 → Instr} {i : Instr} :
    decodeM w build = .ok i ↔
      legalMode (modeField w) ∧ rivField w = false ∧ w.extractLsb' 12 20 = 0#20 ∧ build (modeField w) = i := by
  have hzero := bitsFrom11_eq_zero_iff w
  rw [decodeM]
  by_cases hm : legalMode (modeField w)
  · rw [decodeMode_of_legal hm]
    split <;> simp_all
  · rw [decodeMode_of_reserved hm]
    split <;> simp [hm]

theorem decodeMR_eq_ok_iff {w : Word} {build : BitVec 3 → Bool → Instr} {i : Instr} :
    decodeMR w build = .ok i ↔
      legalMode (modeField w) ∧ w.extractLsb' 12 20 = 0#20 ∧ build (modeField w) (rivField w) = i := by
  rw [decodeMR]
  by_cases hm : legalMode (modeField w)
  · rw [decodeMode_of_legal hm]
    split <;> simp_all
  · rw [decodeMode_of_reserved hm]
    split <;> simp [hm]

/-! ### The decoder as a whole -/

/-- What format Z leaves to check once a word is decoded by the row of `i`: that `i` has no operand. -/
theorem hasFields_of_decodeZ {w : Word} {i j : Instr} (h : decodeZ w i = .ok j) (hopc : (opcField w).toNat = i.opc.toNat)
    (hmode : i.modeBits = 0#3) (hriv : i.rivBit = false) : HasFields w j ∧ j.WellFormed := by
  obtain ⟨hm, hr, hhigh, rfl⟩ := decodeZ_eq_ok_iff.mp h
  refine ⟨⟨BitVec.eq_of_toNat_eq hopc, hm.trans hmode.symm, hr.trans hriv.symm, hhigh⟩, ?_⟩
  rw [Instr.wellFormed_iff, hmode]
  decide

theorem hasFields_of_decodeM {w : Word} {build : BitVec 3 → Instr} {j : Instr} (h : decodeM w build = .ok j)
    (hopc : ∀ m, (opcField w).toNat = (build m).opc.toNat) (hmode : ∀ m, (build m).modeBits = m)
    (hriv : ∀ m, (build m).rivBit = false) : HasFields w j ∧ j.WellFormed := by
  obtain ⟨hm, hr, hhigh, rfl⟩ := decodeM_eq_ok_iff.mp h
  refine ⟨⟨BitVec.eq_of_toNat_eq (hopc _), (hmode _).symm, hr.trans (hriv _).symm, hhigh⟩, ?_⟩
  rwa [Instr.wellFormed_iff, hmode]

/-- No bit of a word that decodes is dropped: the opcode selects the command, the format's check and operands fix the rest. -/
theorem hasFields_of_decode {w : Word} {i : Instr} (h : decode w = .ok i) : HasFields w i ∧ i.WellFormed := by
  unfold decode at h
  split at h
  -- `h_n` is the row of opcode n - 1, and `h_13` the refusal of the opcodes above 0x0B.
  case h_13 => cases h
  case h_5 hopc | h_9 hopc => exact hasFields_of_decodeM h (fun _ => hopc) (fun _ => rfl) fun _ => rfl
  case h_8 hopc =>
    obtain ⟨hm, hhigh, rfl⟩ := decodeMR_eq_ok_iff.mp h
    exact ⟨⟨BitVec.eq_of_toNat_eq hopc, rfl, rfl, hhigh⟩, hm⟩
  all_goals next hopc => exact hasFields_of_decodeZ h hopc rfl rfl

/-- The fields of a well-formed command are all that the decoder asks of a word. -/
theorem decode_of_hasFields {w : Word} {i : Instr} (h : HasFields w i) (hi : i.WellFormed) : decode w = .ok i := by
  obtain ⟨hopc, hmode, hriv, hhigh⟩ := h
  rw [Instr.wellFormed_iff, ← hmode] at hi
  unfold decode
  rw [hopc]
  cases i
  case nop | keyexp | encblk | decblk | mblke | mblkd | ivgen | clrerr | sreset =>
    exact decodeZ_eq_ok_iff.mpr ⟨hmode, hriv, hhigh, rfl⟩
  case minit mode => exact decodeM_eq_ok_iff.mpr ⟨hi, hriv, hhigh, congrArg Instr.minit hmode⟩
  case msgdec mode => exact decodeM_eq_ok_iff.mpr ⟨hi, hriv, hhigh, congrArg Instr.msgdec hmode⟩
  case msgenc mode riv => exact decodeMR_eq_ok_iff.mpr ⟨hi, hhigh, congrArg₂ Instr.msgenc hmode hriv⟩

/-- The decoder inverts the encoder on exactly the well-formed commands (R72, R74, R76). -/
theorem decode_eq_ok_iff {w : Word} {i : Instr} : decode w = .ok i ↔ i.WellFormed ∧ encode i = w := by
  constructor
  · intro h
    obtain ⟨hf, hi⟩ := hasFields_of_decode h
    exact ⟨hi, hf.encode_eq⟩
  · rintro ⟨hi, rfl⟩
    exact decode_of_hasFields (hasFields_encode i) hi

/-! ### The legal commands -/

/-- The modes 0 to 4 (R73). -/
def legalModes : List (BitVec 3) := [0#3, 1#3, 2#3, 3#3, 4#3]

/-- The well-formed commands, in the order in which R74 lists their words. -/
def legalCommands : List Instr :=
  List.flatten
    [[.nop, .keyexp, .encblk, .decblk, .mblke, .mblkd, .ivgen, .clrerr, .sreset],
     legalModes.map Instr.minit,
     legalModes.map fun mode => Instr.msgenc mode false,
     legalModes.map fun mode => Instr.msgenc mode true,
     legalModes.map Instr.msgdec]

theorem mem_legalModes_iff : ∀ mode : BitVec 3, mode ∈ legalModes ↔ legalMode mode := by decide

theorem mem_legalCommands_iff (i : Instr) : i ∈ legalCommands ↔ i.WellFormed := by
  cases i
  case msgenc mode riv => cases riv <;> simp [legalCommands, mem_legalModes_iff]
  all_goals simp [legalCommands, mem_legalModes_iff]

theorem legalWords_eq_map_encode : legalWords = legalCommands.map encode := by decide

/-! ### The rows of the opcode map -/

/-- Every row's mask holds all of OPC and all bits above RIV, and its match has zeros there (R74). -/
theorem opcodeTable_masks : ∀ row ∈ opcodeTable,
    opcField row.mask = BitVec.allOnes 8 ∧ row.mask.extractLsb' 12 20 = BitVec.allOnes 20 ∧
      row.pattern.extractLsb' 12 20 = 0#20 := by decide

theorem opcodeTable_opcField_injective : ∀ row₁ ∈ opcodeTable, ∀ row₂ ∈ opcodeTable,
    opcField row₁.pattern = opcField row₂.pattern → row₁ = row₂ := by decide

theorem opcodeTable_mnemonic_injective : ∀ row₁ ∈ opcodeTable, ∀ row₂ ∈ opcodeTable,
    row₁.mnemonic = row₂.mnemonic → row₁ = row₂ := by decide

/-- The rows without a MODE field are of format Z: they select one word, that of a command without operands. -/
theorem opcodeTable_formatZ : ∀ row ∈ opcodeTable, row.hasMode = false →
    row.mask = BitVec.allOnes 32 ∧ ∃ i ∈ legalCommands, encode i = row.pattern ∧ i.mnemonic = row.mnemonic := by decide

/-- The three rows with a MODE field; only that of MSGENC leaves RIV out of its mask. -/
theorem opcodeTable_hasMode : ∀ row ∈ opcodeTable, row.hasMode = true →
    row = ⟨"MINIT", 0xFFFFF8FF#32, 0x00000004#32, true⟩ ∨ row = ⟨"MSGENC", 0xFFFFF0FF#32, 0x00000007#32, true⟩ ∨
      row = ⟨"MSGDEC", 0xFFFFF8FF#32, 0x00000008#32, true⟩ := by decide

theorem OpcodeRow.Selects.opcField_eq {row : OpcodeRow} {w : Word} (h : row.Selects w) (hrow : row ∈ opcodeTable) :
    opcField w = opcField row.pattern := by
  obtain ⟨hmask, -, -⟩ := opcodeTable_masks row hrow
  calc opcField w = opcField w &&& opcField row.mask := by rw [hmask, BitVec.and_allOnes]
    _ = opcField (w &&& row.mask) := BitVec.extractLsb'_and.symm
    _ = opcField row.pattern := by rw [h.1]

theorem OpcodeRow.Selects.high_eq_zero {row : OpcodeRow} {w : Word} (h : row.Selects w) (hrow : row ∈ opcodeTable) :
    w.extractLsb' 12 20 = 0#20 := by
  obtain ⟨-, hmask, hpattern⟩ := opcodeTable_masks row hrow
  calc w.extractLsb' 12 20 = w.extractLsb' 12 20 &&& row.mask.extractLsb' 12 20 := by rw [hmask, BitVec.and_allOnes]
    _ = (w &&& row.mask).extractLsb' 12 20 := BitVec.extractLsb'_and.symm
    _ = 0#20 := by rw [h.1, hpattern]

/-- A row whose mask holds RIV's bit fixes it. -/
theorem OpcodeRow.Selects.rivField_eq {row : OpcodeRow} {w : Word} (h : row.Selects w)
    (hmask : rivField row.mask = true) : rivField w = rivField row.pattern := by
  rw [← h.1, rivField_and, hmask, Bool.and_true]

/-- A row of the map selects only words that decode to its command. -/
theorem OpcodeRow.Selects.decodes {row : OpcodeRow} {w : Word} (h : row.Selects w) (hrow : row ∈ opcodeTable) :
    ∃ i, decode w = .ok i ∧ i.mnemonic = row.mnemonic := by
  have hopc := h.opcField_eq hrow
  have hhigh := h.high_eq_zero hrow
  cases hmode : row.hasMode with
  | false =>
    obtain ⟨hmask, i, hi, he, hname⟩ := opcodeTable_formatZ row hrow hmode
    have hw : w = row.pattern := by rw [← h.1, hmask, BitVec.and_allOnes]
    exact ⟨i, decode_eq_ok_iff.mpr ⟨(mem_legalCommands_iff i).mp hi, he.trans hw.symm⟩, hname⟩
  | true =>
    have hm := h.2 hmode
    rcases opcodeTable_hasMode row hrow hmode with rfl | rfl | rfl
    · exact ⟨.minit (modeField w), decode_of_hasFields ⟨hopc, rfl, h.rivField_eq (by decide), hhigh⟩ hm, rfl⟩
    · exact ⟨.msgenc (modeField w) (rivField w), decode_of_hasFields ⟨hopc, rfl, rfl, hhigh⟩ hm, rfl⟩
    · exact ⟨.msgdec (modeField w), decode_of_hasFields ⟨hopc, rfl, h.rivField_eq (by decide), hhigh⟩ hm, rfl⟩

theorem legalCommands_selected : ∀ i ∈ legalCommands,
    ∃ row ∈ opcodeTable, row.mnemonic = i.mnemonic ∧ row.Selects (encode i) := by decide

/-- Every word that decodes is selected by the row of its command. -/
theorem selects_of_decode {w : Word} {i : Instr} (h : decode w = .ok i) :
    ∃ row ∈ opcodeTable, row.mnemonic = i.mnemonic ∧ row.Selects w := by
  obtain ⟨hi, rfl⟩ := decode_eq_ok_iff.mp h
  exact legalCommands_selected i ((mem_legalCommands_iff i).mpr hi)

/-! ### The statements -/

/-- Settles O1: the word of a command has its fields, and those are all that the decoder asks of a word. -/
theorem decodeAfterEncodeIsIdentity : Obligations.DecodeAfterEncodeIsIdentity := fun _ hi =>
  decode_eq_ok_iff.mpr ⟨hi, rfl⟩

/-- Settles O2: a word that decodes has the fields of its command, and these determine the word. -/
theorem decodedWordEncodesBack : Obligations.DecodedWordEncodesBack := fun _ _ => decode_eq_ok_iff.mp

/-- Settles O3: a row that selects a word fixes its fields, and two rows differ in OPC and in the mnemonic. -/
theorem decodingFollowsOpcodeMap : Obligations.DecodingFollowsOpcodeMap := by
  refine ⟨fun w row hrow => ⟨fun h => h.decodes hrow, ?_⟩, fun w i => selects_of_decode, ?_⟩
  · rintro ⟨i, hi, hname⟩
    obtain ⟨row', hrow', hname', hselects⟩ := selects_of_decode hi
    rwa [opcodeTable_mnemonic_injective row hrow row' hrow' (hname.symm.trans hname'.symm)]
  · intro w row₁ hrow₁ row₂ hrow₂ h₁ h₂
    exact opcodeTable_opcField_injective row₁ hrow₁ row₂ hrow₂
      ((h₁.opcField_eq hrow₁).symm.trans (h₂.opcField_eq hrow₂))

/-- Settles O4: the listed words are those of the well-formed commands, and these are the words that decode. -/
theorem legalWordsAreTwentyNine : Obligations.LegalWordsAreTwentyNine := by
  refine ⟨fun w => ?_, by decide, rfl⟩
  calc (∃ i, decode w = .ok i) ↔ ∃ i ∈ legalCommands, encode i = w := by
        simp only [decode_eq_ok_iff, mem_legalCommands_iff]
    _ ↔ w ∈ legalWords := by rw [legalWords_eq_map_encode, List.mem_map]

/-- Settles O5: eleven words, each decoded by evaluation. -/
theorem workedEncodingsDecode : Obligations.WorkedEncodingsDecode := by
  unfold Obligations.WorkedEncodingsDecode
  decide

end Sys2Proof
end

section
/-! SUPPORT. The tables and the primitives: the properties of the printed tables and hexadecimal conversion nibble by nibble, with the two statements about them (40_tables_primitives R90, R91, R100, R111). -/

namespace Sys2Proof.Machine

/-! ### The tables -/

theorem rotl_getMsbD {N : Nat} (v : BitVec N) (n : Nat) {p : Nat} (hp : p < N) :
    (rotl v n).getMsbD p = v.getMsbD ((p + n) % N) := by
  simp [rotl, BitVec.getMsbD_rotateLeft, hp, Nat.add_comm]

theorem finalPermutation_initialPermutation (v : Block) :
    perm 64 finalPermutation (perm 64 initialPermutation v) = v :=
  perm_perm_self (T := initialPermutation) (U := finalPermutation) (N := 64) rfl rfl (by decide) v

theorem initialPermutation_finalPermutation (v : Block) :
    perm 64 initialPermutation (perm 64 finalPermutation v) = v :=
  perm_perm_self (T := finalPermutation) (U := initialPermutation) (N := 64) rfl rfl (by decide) v

/-- Every S-box is four rows, each a permutation of the sixteen nibbles (R111 (f)). -/
theorem sboxTable_rows : ∀ j ∈ List.range' 1 8,
    (sboxTable j).length = 4 ∧ ∀ row ∈ sboxTable j, row.Perm (List.range 16) := by decide

/-- Settles O22: the two primitives position by position, and each property of the tables by evaluation of the table. -/
theorem tablesHaveTheirListedProperties : Obligations.TablesHaveTheirListedProperties := by
  refine ⟨fun N v T _ i => ?_, fun N v n p => rotl_getMsbD v n p.isLt,
    ⟨finalPermutation_initialPermutation, initialPermutation_finalPermutation, by decide, by decide⟩,
    by decide, by decide, by decide, by decide, sboxTable_rows, by decide⟩
  rw [perm_getMsbD rfl v i.isLt, List.getD_eq_getElem T 0 i.isLt]
  rfl

/-! ### Hexadecimal digits -/

theorem hexValue_hexChar : ∀ d : BitVec 4, hexValue (hexChar d) = d := by decide

/-- The sixteen hexadecimal characters, each at the index of its nibble. -/
def hexDigits : List Char := ['0', '1', '2', '3', '4', '5', '6', '7', '8', '9', 'a', 'b', 'c', 'd', 'e', 'f']

theorem hexChar_hexValue {c : Char} (hc : c ∈ hexDigits) : hexChar (hexValue c) = c := by
  have hlt : hexDigits.idxOf c < 16 := List.idxOf_lt_length_of_mem hc
  show hexDigits.getD (BitVec.ofNat 4 (hexDigits.idxOf c)).toNat '0' = c
  rw [BitVec.toNat_ofNat, Nat.mod_eq_of_lt hlt, List.getD_eq_getElem _ _ hlt, List.getElem_idxOf hlt]

@[simp] theorem hex_length {N : Nat} (v : BitVec N) : (hex v).length = N / 4 := by simp [hex, chunk]

theorem hex_getElem? {N k : Nat} (v : BitVec N) (hk : k < N / 4) :
    (hex v)[k]? = some (hexChar (v.extractLsb' (N - 4 * (k + 1)) 4)) := by
  simp [hex, chunk, hk, Nat.mul_comm]

/-- Values of whole nibbles are equal when their nibbles are. -/
theorem eq_of_nibbles {N : Nat} (hN : N % 4 = 0) {v w : BitVec N}
    (h : ∀ k, k < N / 4 → v.extractLsb' (4 * k) 4 = w.extractLsb' (4 * k) 4) : v = w := by
  refine BitVec.eq_of_getLsbD_eq fun i hi => ?_
  have hbit := congrArg (·.getLsbD (i % 4)) (h (i / 4) (by omega))
  simpa [show i % 4 < 4 by omega, show 4 * (i / 4) + i % 4 = i by omega] using hbit

/-- The digit read last is the lowest nibble. -/
theorem unhex_concat (N : Nat) (cs : List Char) (c : Char) :
    unhex N (cs ++ [c]) = (unhex N cs <<< 4) ||| (hexValue c).setWidth N := List.foldl_concat ..

theorem shiftNibble_low {N : Nat} (hN : 4 ≤ N) (v : BitVec N) (d : BitVec 4) :
    ((v <<< 4) ||| d.setWidth N).extractLsb' 0 4 = d := by
  refine BitVec.eq_of_getLsbD_eq fun i hi => ?_
  simp [hi, show i < N by omega]

theorem shiftNibble_above {N k : Nat} (hk : 4 * (k + 2) ≤ N) (v : BitVec N) (d : BitVec 4) :
    ((v <<< 4) ||| d.setWidth N).extractLsb' (4 * (k + 1)) 4 = v.extractLsb' (4 * k) 4 := by
  refine BitVec.eq_of_getLsbD_eq fun i hi => ?_
  have hhigh : d.getLsbD (4 * (k + 1) + i) = false := BitVec.getLsbD_of_ge _ _ (by omega)
  simp only [BitVec.getLsbD_extractLsb', BitVec.getLsbD_or, BitVec.getLsbD_shiftLeft, BitVec.getLsbD_setWidth, hhigh,
    show 4 * (k + 1) + i < N by omega, show ¬ 4 * (k + 1) + i < 4 by omega, show 4 * (k + 1) + i - 4 = 4 * k + i by omega]
  simp

/-- Nibble `k` of a value, the least significant being nibble 0, is the `k`-th digit from the end. -/
theorem unhex_nibble {N k : Nat} {cs : List Char} (hcs : 4 * cs.length ≤ N) (hk : k < cs.length) :
    (unhex N cs).extractLsb' (4 * k) 4 = hexValue cs[cs.length - 1 - k] := by
  induction cs using List.reverseRecOn generalizing k with
  | nil => simp at hk
  | append_singleton cs c ih =>
    rw [List.length_append, List.length_singleton] at hcs hk
    rw [unhex_concat]
    cases k with
    | zero => simp [shiftNibble_low (N := N) (by omega)]
    | succ k =>
      have hindex : (cs ++ [c]).length - 1 - (k + 1) = cs.length - 1 - k := by
        rw [List.length_append, List.length_singleton]
        omega
      rw [shiftNibble_above (by omega), ih (by omega) (by omega)]
      simp only [hindex, List.getElem_append_left (show cs.length - 1 - k < cs.length by omega)]

theorem unhex_hex {N : Nat} (hN : N % 4 = 0) (v : BitVec N) : unhex N (hex v) = v := by
  refine eq_of_nibbles hN fun k hk => ?_
  have hdigit := hex_getElem? v (k := N / 4 - 1 - k) (by omega)
  rw [show N - 4 * (N / 4 - 1 - k + 1) = 4 * k by omega] at hdigit
  rw [unhex_nibble (by rw [hex_length]; omega) (by rwa [hex_length])]
  simp only [hex_length, (List.getElem?_eq_some_iff.mp hdigit).2, hexValue_hexChar]

theorem hex_unhex {N : Nat} (hN : N % 4 = 0) {cs : List Char} (hlen : cs.length = N / 4)
    (hcs : ∀ c ∈ cs, c ∈ hexDigits) : hex (unhex N cs) = cs := by
  refine List.ext_getElem? fun k => ?_
  by_cases hk : k < N / 4
  · rw [hex_getElem? _ hk, show N - 4 * (k + 1) = 4 * (cs.length - 1 - k) by omega,
      unhex_nibble (by omega) (by omega), hexChar_hexValue (hcs _ (List.getElem_mem _))]
    simp only [show cs.length - 1 - (cs.length - 1 - k) = k by omega]
    exact (List.getElem?_eq_getElem _).symm
  · rw [List.getElem?_eq_none (by rw [hex_length]; omega), List.getElem?_eq_none (by omega)]

/-- Settles O23: digit `k` is nibble `k` from the top in both directions, and a digit and its nibble determine each other. -/
theorem hexConversionRoundTrips : Obligations.HexConversionRoundTrips := by
  intro N hN
  have hwhole : N % 4 = 0 := by
    revert N
    decide
  exact ⟨fun v => ⟨hex_length v, fun _ => hex_getElem? v, unhex_hex hwhole v⟩,
    fun _ => hex_unhex hwhole⟩

end Sys2Proof.Machine
end

section
/-! SUPPORT. The S-box lookup and the trace of a core invocation record by record, with the statement about it (40_tables_primitives R109; 42_round_function R131, R132; 43_block_cipher R141, R142, R145; 46_variant R201 to R207). -/

namespace Sys2Proof.Machine

/-! ### The S-box lookup -/

/-- No entry of an S-box is above 15, and a missing one reads as 0. -/
theorem sboxTable_entry_lt {j : Nat} (hj : j ∈ List.range' 1 8) (row col : Nat) :
    ((sboxTable j).getD row []).getD col 0 < 16 := by
  by_cases hrow : row < (sboxTable j).length
  · rw [List.getD_eq_getElem _ _ hrow]
    have hperm := (sboxTable_rows j hj).2 _ (List.getElem_mem hrow)
    by_cases hcol : col < ((sboxTable j)[row]).length
    · rw [List.getD_eq_getElem _ _ hcol]
      exact List.mem_range.mp (hperm.mem_iff.mp (List.getElem_mem hcol))
    · rw [List.getD_eq_default _ _ (by omega)]
      decide
  · rw [List.getD_eq_default (sboxTable j) _ (by omega), List.getD_nil]
    decide

/-- The column of the S-box lookup is the value of the inner four bits (R109). -/
theorem innerBits_toNat : ∀ g : BitVec 6,
    8 * (pos g 2).toNat + 4 * (pos g 3).toNat + 2 * (pos g 4).toNat + (pos g 5).toNat = (g.extractLsb' 1 4).toNat := by
  decide

theorem sbox_toNat {j : Nat} (hj : j ∈ List.range' 1 8) (g : BitVec 6) :
    (sbox j g).toNat =
      ((sboxTable j).getD (2 * (g.getLsbD 5).toNat + (g.getLsbD 0).toNat) []).getD (g.extractLsb' 1 4).toNat 0 := by
  have hfirst : pos g 1 = g.getLsbD 5 := rfl
  have hlast : pos g 6 = g.getLsbD 0 := rfl
  unfold sbox
  rw [hfirst, hlast, innerBits_toNat, BitVec.toNat_ofNat, Nat.mod_eq_of_lt (sboxTable_entry_lt hj _ _)]

theorem sboxList_getD (j : Fin 8) :
    [sbox1, sbox2, sbox3, sbox4, sbox5, sbox6, sbox7, sbox8].getD j.val [] = sboxTable (j.val + 1) := by
  fin_cases j <;> rfl

/-! ### The rounds of a core invocation -/

/-- Subkey number `i` of the rounds: forwards when encrypting or when decrypting under REV_KEYS, else backwards (43_block_cipher R145; 46_variant R204). -/
def roundKey (b : KsBank) (dir : Dir) (rev : Bool) (i : Fin 16) : Subkey :=
  if dir = .enc ↔ rev = false then b.recs[i].k else b.recs[15 - i.val].k

theorem subkeySequence_getElem? (b : KsBank) (dir : Dir) (rev : Bool) (i : Fin 16) :
    (subkeySequence b dir rev)[i.val]? = some (roundKey b dir rev i) := by
  have hforward : (subkeys b)[i.val]? = some b.recs[i].k := subkeys_getElem b i.isLt
  have hbackward : (subkeys b).reverse[i.val]? = some b.recs[15 - i.val].k := by
    rw [List.getElem?_reverse (by simp), subkeys_length]
    exact subkeys_getElem b (by omega)
  match dir, rev with
  | .enc, false => exact hforward
  | .enc, true => exact hbackward
  | .dec, false => exact hbackward
  | .dec, true => exact (congrArg (·[i.val]?) (List.reverse_reverse _)).trans hforward

/-- The subkeys of the rounds that a core invocation executes, in order (43_block_cipher R141). -/
def roundKeys (key : Block) (dir : Dir) (vp : VariantParams) : List Subkey :=
  (subkeySequence (keySchedule key (shiftAmounts vp)) dir vp.revKeys).take (roundCount vp)

/-- The bound on NR alone bounds the rounds: how many amounts ALTSHIFT has does not matter for them. -/
theorem roundCount_bounds {vp : VariantParams} (hnr : vp.nr ≤ 16) : 1 ≤ roundCount vp ∧ roundCount vp ≤ 16 :=
  VariantParams.Legal.roundCount_bounds (vp := { vp with altsh := standardShifts }) ⟨hnr, rfl⟩

theorem roundKeys_length {vp : VariantParams} (hnr : vp.nr ≤ 16) (key : Block) (dir : Dir) :
    (roundKeys key dir vp).length = roundCount vp := by
  rw [roundKeys, List.length_take, subkeySequence_length, Nat.min_eq_left (roundCount_bounds hnr).2]

theorem roundKeys_getElem? {vp : VariantParams} {i : Fin 16} (hi : i.val < roundCount vp) (key : Block) (dir : Dir) :
    (roundKeys key dir vp)[i.val]? = some (roundKey (keySchedule key (shiftAmounts vp)) dir vp.revKeys i) := by
  rw [roundKeys, List.getElem?_take_of_lt hi, subkeySequence_getElem?]

/-- The halves before the round that a record is of. -/
def TrRecord.halves (t : TrRecord) : Halves := { l := t.l, r := t.r }

theorem TrRecord.halves_join (t : TrRecord) : t.halves.join = t.l ++ t.r := rfl

theorem TrRecord.halves_swap_join (t : TrRecord) : t.halves.swap.join = t.r ++ t.l := rfl

/-- What the fields of a round's record are, the S-box stage nibble by nibble (42_round_function R131, R132). -/
theorem TrRecord.IsRound.fields {t : TrRecord} (h : t.IsRound) :
    t.e = perm 48 expansion t.r ∧ t.x = t.e ^^^ t.k ∧
    (∀ j : Fin 8, t.s.extractLsb' (28 - 4 * j.val) 4 = sbox (j.val + 1) (t.x.extractLsb' (42 - 6 * j.val) 6)) ∧
    t.p = perm 32 roundPermutation t.s ∧ t.blk = t.r ++ (t.l ^^^ t.p) := by
  rw [show t = _ from h]
  exact ⟨rfl, rfl, substitute_nibble _, rfl, rfl⟩

theorem TrRecord.IsRound.blk_eq {t : TrRecord} (h : t.IsRound) : t.blk = (roundHalves t.halves t.k).join :=
  congrArg TrRecord.blk h

section
variable {block key : Block} {dir : Dir} {vp : VariantParams} {c : CoreResult} (hc : c = cipherCore block key dir vp)
include hc

theorem cipherCore_header (hnr : vp.nr ≤ 16) :
    c.ks = keySchedule key (shiftAmounts vp) ∧ c.tr.len.toNat = roundCount vp ∧ c.tr.dir = dir ∧ c.tr.inp = block ∧
    c.tr.ip = if vp.skipIp then block else perm 64 initialPermutation block := by
  subst hc
  have hle := (roundCount_bounds hnr).2
  exact ⟨rfl, Nat.mod_eq_of_lt (by omega), rfl, rfl, rfl⟩

theorem cipherCore_recs (i : Fin 16) :
    c.tr.recs[i] = (runRounds vp.swapr 0 (roundKeys key dir vp) (Halves.ofBlock c.tr.ip)).1.getD i.val TrRecord.zero := by
  subst hc
  simp [cipherCore, roundKeys]

/-- The record of an executed round is a round with the subkey of its turn, on the output of the IP stage if it is the first; its result, exchanged after round SWAPR, is what the next round works on. -/
theorem cipherCore_round {i : Fin 16} (hi : i.val < roundCount vp) :
    c.tr.recs[i].IsRound ∧ c.tr.recs[i].k = roundKey c.ks dir vp.revKeys i ∧
    (i.val = 0 → c.tr.recs[i].halves = Halves.ofBlock c.tr.ip) ∧
    ∀ j : Fin 16, j.val = i.val + 1 → j.val < roundCount vp →
      c.tr.recs[j].halves =
        if vp.swapr = j.val then (roundHalves c.tr.recs[i].halves c.tr.recs[i].k).swap
        else roundHalves c.tr.recs[i].halves c.tr.recs[i].k := by
  have hkey : (roundKeys key dir vp)[i.val]? = some (roundKey c.ks dir vp.revKeys i) := by
    rw [roundKeys_getElem? hi, hc]
    rfl
  obtain ⟨x, hrec, hfirst, hnext, -⟩ := runRounds_getElem vp.swapr (i := 0) (h := Halves.ofBlock c.tr.ip) hkey
  have hi_rec : c.tr.recs[i] = roundRecord x (roundKey c.ks dir vp.revKeys i) := by
    rw [cipherCore_recs hc, List.getD_eq_getElem?_getD, hrec, Option.getD_some]
  rw [hi_rec]
  refine ⟨roundRecord_isRound _ _, rfl, hfirst, fun j hj hjn => ?_⟩
  have hj_rec : (runRounds vp.swapr 0 (roundKeys key dir vp) (Halves.ofBlock c.tr.ip)).1[i.val + 1]? = some c.tr.recs[j] := by
    have hlt : j.val < (runRounds vp.swapr 0 (roundKeys key dir vp) (Halves.ofBlock c.tr.ip)).1.length := by
      rw [runRounds_length]
      exact (List.getElem?_eq_some_iff.mp (roundKeys_getElem? hjn key dir)).1
    rw [cipherCore_recs hc, ← hj, List.getD_eq_getElem _ _ hlt, List.getElem?_eq_getElem hlt]
  rw [show 0 + i.val + 1 = j.val by omega] at hnext
  exact hnext _ hj_rec

end

/-- Settles O25: the header, each executed round by `cipherCore_round`, and zeros where no round was executed. -/
theorem traceRecordsFollowTheRounds : Obligations.TraceRecordsFollowTheRounds := by
  intro block key dir vp hnr c n
  have hc : c = cipherCore block key dir vp := rfl
  obtain ⟨hks, hlen, hdir, hinp, hip⟩ := cipherCore_header hc hnr
  clear_value c
  refine ⟨hks, hlen, hdir, hinp, hip, ?_, fun i hi => ?_, fun i j hj hjn => ?_, fun i hi => ?_⟩
  · obtain ⟨-, -, hfirst, -⟩ := cipherCore_round hc (i := 0) (roundCount_bounds hnr).1
    rw [← TrRecord.halves_join]
    exact (congrArg Halves.join (hfirst rfl)).trans (Halves.join_ofBlock _)
  · obtain ⟨hisRound, hkey, -⟩ := cipherCore_round hc hi
    obtain ⟨he, hx, hs, hp, hblk⟩ := hisRound.fields
    refine ⟨hisRound, hkey, he, hx, fun j => ?_, hp, hblk⟩
    have hj : j.val + 1 ∈ List.range' 1 8 := List.mem_range'_1.mpr ⟨by omega, by omega⟩
    rw [sboxList_getD, hs j]
    exact sbox_toNat hj _
  · obtain ⟨hisRound, -, -, hnext⟩ := cipherCore_round hc (i := i) (Nat.lt_trans (by omega) hjn)
    rw [hisRound.blk_eq, ← TrRecord.halves_join, ← TrRecord.halves_swap_join, hnext j hj hjn]
    split <;> simp only [Halves.swap_swap]
  · rw [cipherCore_recs hc]
    exact runRounds_getD_zero (by rw [roundKeys_length hnr]; exact hi)

end Sys2Proof.Machine
end

section
/-! SUPPORT. Rotations and the key schedule round by round, with the statements about it and about KEYEXP (40_tables_primitives R91, R110, R111; 41_key_schedule R121 to R125). -/

namespace Sys2Proof.Machine

/-! ### Rotations and permutations -/

/-- Rotations accumulate (R121). -/
theorem rotl_rotl {N : Nat} (v : BitVec N) (m n : Nat) : rotl (rotl v m) n = rotl v (m + n) := by
  refine eq_of_getMsbD fun p hp => ?_
  rw [rotl_getMsbD _ _ hp, rotl_getMsbD _ _ (Nat.mod_lt _ (by omega)), rotl_getMsbD _ _ hp, Nat.mod_add_mod,
    Nat.add_assoc, Nat.add_comm n m]

/-- A rotation by a multiple of the width is none (R91). -/
theorem rotl_of_dvd {N n : Nat} (hn : N ∣ n) (v : BitVec N) : rotl v n = v := by
  refine eq_of_getMsbD fun p hp => ?_
  obtain ⟨k, rfl⟩ := hn
  rw [rotl_getMsbD _ _ hp, Nat.add_mul_mod_self_left, Nat.mod_eq_of_lt hp]

theorem pos_and {N : Nat} (v w : BitVec N) (p : Nat) : pos (v &&& w) p = (pos v p && pos w p) := BitVec.getMsbD_and

/-- A permutation whose table names only positions that a mask keeps does not see the others. -/
theorem perm_eq_of_and_eq {N M : Nat} {T : List Nat} {mask v w : BitVec N} (hT : T.length = M)
    (hmask : ∀ p ∈ T, pos mask p = true) (h : v &&& mask = w &&& mask) : perm M T v = perm M T w := by
  refine eq_of_getMsbD fun i hi => ?_
  have hkept : pos mask (T.getD i 0) = true := by
    rw [List.getD_eq_getElem T 0 (by omega)]
    exact hmask _ (List.getElem_mem _)
  have hsame (u : BitVec N) : pos u (T.getD i 0) = pos (u &&& mask) (T.getD i 0) := by
    rw [pos_and, hkept, Bool.and_true]
  rw [perm_getMsbD hT _ hi, perm_getMsbD hT _ hi, hsame v, hsame w, h]

/-! ### The rounds of the key schedule -/

/-- How far the halves are rotated, all in all, when `n` rounds are done (R121). -/
def totalShift (sh : List (BitVec 2)) (n : Nat) : Nat := ((sh.take n).map BitVec.toNat).sum

theorem totalShift_succ {sh : List (BitVec 2)} {n : Nat} (hn : n < sh.length) :
    totalShift sh (n + 1) = totalShift sh n + sh[n].toNat := by
  rw [totalShift, List.take_succ_eq_append_getElem hn, List.map_append, List.sum_append]
  rfl

/-- The amounts of the fixed shifts sum to the width of a half (R110, R124). -/
theorem totalShift_standardShifts : totalShift standardShifts 16 = 28 := by decide

/-- The record of a round that rotates by `n` and leaves the halves `c` and `d` (R121). -/
def keyRecord (n : BitVec 2) (c d : KeyHalf) : KsRecord :=
  { shift := n, c := c, d := d, k := perm 48 permutedChoice2 (c ++ d : BitVec 56) }

/-- Round `i + 1` leaves the first halves, rotated by the amounts of all rounds so far. -/
theorem keyRounds_getElem? {sh : List (BitVec 2)} {i : Nat} (hi : i < sh.length) (c d : KeyHalf) :
    (keyRounds sh c d)[i]? =
      some (keyRecord sh[i] (rotl c (totalShift sh (i + 1))) (rotl d (totalShift sh (i + 1)))) := by
  induction sh generalizing i c d with
  | nil => simp at hi
  | cons n rest ih =>
    cases i with
    | zero => simp [keyRounds, keyRecord, totalShift]
    | succ i =>
      have hi' : i < rest.length := Nat.lt_of_succ_lt_succ hi
      have htotal : totalShift (n :: rest) (i + 1 + 1) = n.toNat + totalShift rest (i + 1) := rfl
      rw [keyRounds, List.getElem?_cons_succ, ih hi', rotl_rotl, rotl_rotl, htotal, List.getElem_cons_succ]

/-- The two halves before round 1 are the two halves of PC-1 of the key (R121). -/
theorem keySchedule_c0_d0 (key : Block) (sh : List (BitVec 2)) :
    ((keySchedule key sh).c0 ++ (keySchedule key sh).d0 : BitVec 56) = perm 56 permutedChoice1 key :=
  (BitVec.extractLsb'_append_extractLsb'_eq_extractLsb' rfl).trans BitVec.extractLsb'_eq_self

/-- The record of round `i + 1` of a bank, from C0 and D0. -/
theorem keySchedule_rec {sh : List (BitVec 2)} (hsh : sh.length = 16) (key : Block) (i : Fin 16) :
    (keySchedule key sh).recs[i] =
      keyRecord sh[i] (rotl (keySchedule key sh).c0 (totalShift sh (i.val + 1)))
        (rotl (keySchedule key sh).d0 (totalShift sh (i.val + 1))) := by
  have hi : i.val < sh.length := by omega
  rw [keySchedule_recs, List.getD_eq_getElem?_getD, keyRounds_getElem? hi, Option.getD_some]
  rfl

/-- Settles O20: a round leaves the first halves rotated by the sum of the amounts so far, and that sum grows in each round by the round's own amount. -/
theorem keyScheduleRoundsAccumulate : Obligations.KeyScheduleRoundsAccumulate := by
  intro key sh hsh b
  refine ⟨keySchedule_c0_d0 key sh, fun i => ?_⟩
  have hi : i.val < sh.length := by omega
  have hamount : sh.getD i.val 0#2 = sh[i.val] := List.getD_eq_getElem _ _ hi
  have hrec := keySchedule_rec hsh key i
  rw [totalShift_succ hi, ← rotl_rotl, ← rotl_rotl] at hrec
  rw [hamount, show b.recs[i] = _ from hrec]
  refine ⟨rfl, rfl, fun hfirst => ?_, fun j hj => ?_⟩
  · obtain rfl : i = 0 := Fin.ext hfirst
    have hnone : totalShift sh (0 : Fin 16).val = 0 := rfl
    rw [hnone, rotl_of_dvd (dvd_zero 28), rotl_of_dvd (dvd_zero 28), show sh.getD 0 0#2 = _ from hamount]
    exact ⟨rfl, rfl⟩
  · rw [show b.recs[j] = _ from keySchedule_rec hsh key j, hj]
    exact ⟨rfl, rfl⟩

/-- Settles O21: the fixed shifts turn the halves once around, and PC-1 takes no parity bit. -/
theorem scheduleClosesAndIgnoresParity : Obligations.ScheduleClosesAndIgnoresParity := by
  refine ⟨fun key => ?_, fun key₁ key₂ sh h => ?_⟩
  · have hlast := keySchedule_rec (sh := standardShifts) rfl key 15
    have htotal : totalShift standardShifts ((15 : Fin 16).val + 1) = 28 := totalShift_standardShifts
    rw [htotal, rotl_of_dvd (dvd_refl 28), rotl_of_dvd (dvd_refl 28)] at hlast
    exact ⟨congrArg KsRecord.c hlast, congrArg KsRecord.d hlast⟩
  · have hpc1 : perm 56 permutedChoice1 key₁ = perm 56 permutedChoice1 key₂ :=
      perm_eq_of_and_eq rfl (by decide) h
    unfold keySchedule
    rw [hpc1]

/-! ### KEYEXP -/

theorem exec_keyexp (s : State) : exec .keyexp s = .next ((s.storeKs (keySchedule s.key standardShifts)).complete) := rfl

/-- Settles O19: KEYEXP is `StoreKS` of the schedule and completion, and their writes are those of the statement. -/
theorem keyexpStoresStandardSchedule : Obligations.KeyexpStoresStandardSchedule := exec_keyexp

end Sys2Proof.Machine
end

section
/-! SUPPORT. The round and complements: a round undone by a round on the exchanged halves, and complementing block and key carried through the primitives, the key schedule, the rounds and the core, with the two statements (41_key_schedule R121; 42_round_function R131, R132, R134; 43_block_cipher R141). -/

namespace Sys2Proof.Machine

/-! ### A round on the exchanged halves -/

/-- F sees only the half that a round hands on, so a second round XORs the same value into the other half again (R132, R134). -/
theorem roundHalves_swap_roundHalves (h : Halves) (k : Subkey) : roundHalves (roundHalves h k).swap k = h.swap :=
  congrArg (Halves.mk h.r) (xor_cancel_right h.l (roundF h.r k))

/-- Settles O24: the exchanged halves of a round undo it. -/
theorem roundUndoesItselfUpToSwap : Obligations.RoundUndoesItselfUpToSwap := roundHalves_swap_roundHalves

/-! ### Complements and the primitives -/

/-- Where a table names positions of its operand only, a permutation or an expansion commutes with complement. -/
theorem perm_not {N M : Nat} {T : List Nat} (hT : T.length = M) (hnames : ∀ p ∈ T, p - 1 < N) (v : BitVec N) :
    perm M T (~~~v) = ~~~(perm M T v) := by
  refine eq_of_getMsbD fun i hi => ?_
  have hpos : T.getD i 0 - 1 < N := by
    rw [List.getD_eq_getElem T 0 (by omega)]
    exact hnames _ (List.getElem_mem _)
  simp only [perm_getMsbD hT _ hi, BitVec.getMsbD_not, pos, hpos, hi]

theorem initialPermutation_not (v : Block) :
    perm 64 initialPermutation (~~~v) = ~~~(perm 64 initialPermutation v) := perm_not rfl (by decide) v

theorem finalPermutation_not (v : Block) :
    perm 64 finalPermutation (~~~v) = ~~~(perm 64 finalPermutation v) := perm_not rfl (by decide) v

theorem permutedChoice1_not (v : Block) :
    perm 56 permutedChoice1 (~~~v) = ~~~(perm 56 permutedChoice1 v) := perm_not rfl (by decide) v

theorem permutedChoice2_not (v : BitVec 56) :
    perm 48 permutedChoice2 (~~~v) = ~~~(perm 48 permutedChoice2 v) := perm_not rfl (by decide) v

theorem expand_not (r : Half) : expand (~~~r) = ~~~(expand r) := perm_not rfl (by decide) r

theorem rotl_not {N : Nat} (v : BitVec N) (n : Nat) : rotl (~~~v) n = ~~~(rotl v n) := by
  refine eq_of_getMsbD fun p hp => ?_
  have hin : (p + n) % N < N := Nat.mod_lt _ (by omega)
  simp only [rotl_getMsbD _ _ hp, BitVec.getMsbD_not, hp, hin]

/-- Also for a field that reaches up to the top bit, which `BitVec.extractLsb'_not_of_lt` leaves out. -/
theorem extractLsb'_not_of_le {N start len : Nat} (h : start + len ≤ N) (v : BitVec N) :
    (~~~v).extractLsb' start len = ~~~(v.extractLsb' start len) := by
  refine BitVec.eq_of_getLsbD_eq fun i hi => ?_
  have hin : start + i < N := by omega
  simp [hi, hin]

/-! ### Complements and the subkeys -/

theorem keySchedule_c0_not (key : Block) (sh : List (BitVec 2)) :
    (keySchedule (~~~key) sh).c0 = ~~~(keySchedule key sh).c0 := by
  simp only [keySchedule, permutedChoice1_not, extractLsb'_not_of_le (show 28 + 28 ≤ 56 by decide)]

theorem keySchedule_d0_not (key : Block) (sh : List (BitVec 2)) :
    (keySchedule (~~~key) sh).d0 = ~~~(keySchedule key sh).d0 := by
  simp only [keySchedule, permutedChoice1_not, extractLsb'_not_of_le (show 0 + 28 ≤ 56 by decide)]

theorem keyRecord_not (n : BitVec 2) (c d : KeyHalf) : (keyRecord n (~~~c) (~~~d)).k = ~~~(keyRecord n c d).k := by
  rw [keyRecord, ← BitVec.not_append]
  exact permutedChoice2_not _

/-- The complement of a key has the complements of its subkeys, whatever the sixteen amounts (41_key_schedule R121). -/
theorem keySchedule_k_not {sh : List (BitVec 2)} (hsh : sh.length = 16) (key : Block) (i : Fin 16) :
    (keySchedule (~~~key) sh).recs[i].k = ~~~(keySchedule key sh).recs[i].k := by
  rw [keySchedule_rec hsh, keySchedule_rec hsh, keySchedule_c0_not, keySchedule_d0_not, rotl_not, rotl_not, keyRecord_not]

theorem subkeys_not {sh : List (BitVec 2)} (hsh : sh.length = 16) (key : Block) :
    subkeys (keySchedule (~~~key) sh) = (subkeys (keySchedule key sh)).map (~~~·) := by
  refine List.ext_getElem (by simp) fun i hi _ => ?_
  simpa [subkeys] using keySchedule_k_not hsh key ⟨i, by simpa using hi⟩

theorem subkeySequence_map {b b' : KsBank} {f : Subkey → Subkey} (h : subkeys b' = (subkeys b).map f) (dir : Dir)
    (rev : Bool) : subkeySequence b' dir rev = (subkeySequence b dir rev).map f := by
  cases dir <;> cases rev <;> simp [subkeySequence, h]

theorem roundKeys_not {vp : VariantParams} (hvp : vp.Legal) (key : Block) (dir : Dir) :
    roundKeys (~~~key) dir vp = (roundKeys key dir vp).map (~~~·) := by
  rw [roundKeys, subkeySequence_map (subkeys_not hvp.shiftAmounts_length key), ← List.map_take, roundKeys]

/-! ### Complements and the rounds -/

/-- Both halves complemented. -/
def Halves.complement (h : Halves) : Halves := { l := ~~~h.l, r := ~~~h.r }

theorem Halves.join_complement (h : Halves) : h.complement.join = ~~~h.join := BitVec.not_append.symm

theorem Halves.swap_complement (h : Halves) : h.complement.swap = h.swap.complement := rfl

theorem Halves.ofBlock_not (b : Block) : Halves.ofBlock (~~~b) = (Halves.ofBlock b).complement := by
  rw [← Halves.ofBlock_join (Halves.ofBlock b).complement, Halves.join_complement, Halves.join_ofBlock]

/-- F does not change: the complements cancel where the expanded half meets the subkey (42_round_function R131). -/
theorem roundF_not (r : Half) (k : Subkey) : roundF (~~~r) (~~~k) = roundF r k := by
  have hcancel : ~~~(expand r) ^^^ ~~~k = expand r ^^^ k := by
    rw [← BitVec.not_xor_left, ← BitVec.not_xor_right, BitVec.not_not]
  simp only [roundF, expand_not, hcancel]

theorem roundHalves_complement (h : Halves) (k : Subkey) :
    roundHalves h.complement (~~~k) = (roundHalves h k).complement := by
  simp only [roundHalves, Halves.complement, roundF_not, BitVec.not_xor_left]

theorem runRounds_complement (swapr i : Nat) (ks : List Subkey) (h : Halves) :
    (runRounds swapr i (ks.map (~~~·)) h.complement).2 = (runRounds swapr i ks h).2.complement := by
  induction ks generalizing i h with
  | nil => rfl
  | cons k rest ih =>
    simp only [List.map_cons, runRounds, roundHalves_complement, Halves.swap_complement, ← apply_ite Halves.complement, ih]

/-! ### Complements and the core -/

theorem cipherCore_out (block key : Block) (dir : Dir) (vp : VariantParams) :
    (cipherCore block key dir vp).out =
      let ipb := if vp.skipIp then block else perm 64 initialPermutation block
      let last := (runRounds vp.swapr 0 (roundKeys key dir vp) (Halves.ofBlock ipb)).2
      let pre := if vp.skipSwap then last.join else last.swap.join
      if vp.skipFp then pre else perm 64 finalPermutation pre := rfl

/-- Every stage of the core commutes with complement: IP and FP or the identity, the rounds, and the exchange of the halves or none (43_block_cipher R141). -/
theorem cipherCore_out_not {vp : VariantParams} (hvp : vp.Legal) (block key : Block) (dir : Dir) :
    (cipherCore (~~~block) (~~~key) dir vp).out = ~~~(cipherCore block key dir vp).out := by
  simp only [cipherCore_out, roundKeys_not hvp, initialPermutation_not, ← apply_ite (~~~· : Block → Block),
    Halves.ofBlock_not, runRounds_complement, Halves.swap_complement, Halves.join_complement, finalPermutation_not]

/-- Settles O31: the standard parameters are legal, and under every legal variant the core commutes with complement. -/
theorem complementOfKeyAndBlockComplements : Obligations.ComplementOfKeyAndBlockComplements := fun key block =>
  cipherCore_out_not stdParams_legal block key .enc

end Sys2Proof.Machine
end

section
/-! SUPPORT. The single-block cipher: the rounds undone by the rounds under the reversed subkeys, the weak key, the output from the last round, and ENCBLK and DECBLK, with the three statements (43_block_cipher R141 to R147; 46_variant R200 to R207). -/

namespace Sys2Proof.Machine

/-! ### The output and the last round -/

/-- The halves after the last round are its block, exchanged if SWAPR is that round (46_variant R207). -/
theorem cipherCore_lastRound {block key : Block} {dir : Dir} {vp : VariantParams} {c : CoreResult}
    (hc : c = cipherCore block key dir vp) (hnr : vp.nr ≤ 16) {i : Fin 16} (hi : i.val + 1 = roundCount vp) :
    (runRounds vp.swapr 0 (roundKeys key dir vp) (Halves.ofBlock c.tr.ip)).2 =
      if vp.swapr = roundCount vp then (Halves.ofBlock c.tr.recs[i].blk).swap else Halves.ofBlock c.tr.recs[i].blk := by
  obtain ⟨x, hrec, -, -, hlast⟩ := runRounds_getElem vp.swapr (i := 0) (h := Halves.ofBlock c.tr.ip)
    (roundKeys_getElem? (vp := vp) (i := i) (by omega) key dir)
  rw [cipherCore_recs hc, List.getD_eq_getElem?_getD, hrec, Option.getD_some,
    hlast (by rw [roundKeys_length hnr, hi]), Nat.zero_add, hi, roundRecord, Halves.ofBlock_join]

/-- SWAPR on the last round exchanges the halves, and the half-swap, unless SKIP_SWAP, exchanges them again: FP gets the last block exchanged when exactly one of the two is done (46_variant R203, R207). -/
theorem exchanges_before_fp {b : Block} {h : Halves} {skipSwap swapLast : Prop} [Decidable skipSwap] [Decidable swapLast]
    (hh : h = if swapLast then (Halves.ofBlock b).swap else Halves.ofBlock b) :
    (if skipSwap then h.join else h.swap.join) =
      if skipSwap ↔ swapLast then (b.extractLsb' 0 32 ++ b.extractLsb' 32 32 : Block) else b := by
  have hswapped : (b.extractLsb' 0 32 ++ b.extractLsb' 32 32 : Block) = (Halves.ofBlock b).swap.join := rfl
  by_cases hlast : swapLast
  · by_cases hskip : skipSwap <;> simp [hh, hlast, hskip, hswapped]
  · by_cases hskip : skipSwap <;> simp [hh, hlast, hskip, hswapped]

/-- Settles O26: the halves after the last round are known from its block, and what the core does with them before FP is `exchanges_before_fp`. -/
theorem outputComesFromTheLastRound : Obligations.OutputComesFromTheLastRound := by
  intro block key dir vp hnr c n i hi last pre
  have hpre := exchanges_before_fp (skipSwap := vp.skipSwap = true) (cipherCore_lastRound (c := c) rfl hnr hi)
  refine ⟨rfl, (cipherCore_out block key dir vp).trans ?_⟩
  exact congrArg (fun b => if vp.skipFp then b else perm 64 finalPermutation b) hpre

/-! ### Rounds under the reversed subkeys -/

/-- Without SWAPR, the rounds under the reversed subkeys, on the exchanged halves, undo the rounds up to an exchange, each round by `roundHalves_swap_roundHalves` (R147). -/
theorem runRounds_reverse (i j : Nat) (ks : List Subkey) (h : Halves) :
    (runRounds 0 j ks.reverse (runRounds 0 i ks h).2.swap).2 = h.swap := by
  induction ks generalizing i h with
  | nil => rfl
  | cons k rest ih =>
    have hundo : (runRounds 0 j rest.reverse (runRounds 0 (i + 1) rest (roundHalves h k)).2.swap).2 =
        (roundHalves h k).swap := ih (i + 1) (roundHalves h k)
    simp [runRounds, runRounds_concat, hundo, roundHalves_swap_roundHalves]

/-- A core invocation undoes another that has its subkeys in the reverse order, if IP and FP are both there or both not, and the halves are exchanged after the last round alone (43_block_cipher R147; 46_variant R210). -/
theorem cipherCore_out_of_reverse {key : Block} {vp : VariantParams} {dir dir' : Dir} (hpermutations : vp.skipIp = vp.skipFp)
    (hskipSwap : vp.skipSwap = false) (hswapr : vp.swapr = 0)
    (hkeys : roundKeys key dir' vp = (roundKeys key dir vp).reverse) (block : Block) :
    (cipherCore (cipherCore block key dir vp).out key dir' vp).out = block := by
  simp only [cipherCore_out, hpermutations, hskipSwap, hswapr, hkeys, Bool.false_eq_true, if_false]
  cases vp.skipFp with
  | false => simp [initialPermutation_finalPermutation, finalPermutation_initialPermutation, runRounds_reverse]
  | true => simp [runRounds_reverse]

/-- When no round is cut off, decrypting has the subkeys of encrypting in the reverse order (R145). -/
theorem roundKeys_dec {vp : VariantParams} (hn : roundCount vp = 16) (key : Block) :
    roundKeys key .dec vp = (roundKeys key .enc vp).reverse := by
  have hall (dir : Dir) :
      roundKeys key dir vp = subkeySequence (keySchedule key (shiftAmounts vp)) dir vp.revKeys :=
    List.take_of_length_le (by rw [subkeySequence_length, hn])
  rw [hall, hall, subkeySequence_dec]

theorem blockDecrypt_blockEncrypt (key block : Block) : blockDecrypt key (blockEncrypt key block) = block :=
  cipherCore_out_of_reverse rfl rfl rfl (roundKeys_dec rfl key) block

theorem blockEncrypt_blockDecrypt (key block : Block) : blockEncrypt key (blockDecrypt key block) = block :=
  cipherCore_out_of_reverse rfl rfl rfl (by rw [roundKeys_dec rfl key, List.reverse_reverse]) block

/-! ### The weak key -/

/-- The key whose only bits set are the parity bits, which PC-1 does not take (R147). -/
def weakKey : Block := 0x0101010101010101#64

theorem rotl_zero (N n : Nat) : rotl (0#N) n = 0#N :=
  eq_of_getMsbD fun p hp => by simp [rotl_getMsbD _ _ hp]

theorem perm_zero {N M : Nat} {T : List Nat} (hT : T.length = M) : perm M T (0#N) = 0#M :=
  eq_of_getMsbD fun i hi => by simp [perm_getMsbD hT _ hi, pos]

/-- The weak key has the schedule of the key 0, whose halves are 0 in every round. -/
theorem keySchedule_weakKey_k (i : Fin 16) : (keySchedule weakKey standardShifts).recs[i].k = 0#48 := by
  obtain ⟨-, hparity⟩ := scheduleClosesAndIgnoresParity
  have hpc1 : perm 56 permutedChoice1 0#64 = 0#56 := perm_zero rfl
  have hpc2 : perm 48 permutedChoice2 (0#28 ++ 0#28 : BitVec 56) = 0#48 := perm_zero rfl
  have hc0 : (keySchedule 0#64 standardShifts).c0 = 0#28 := congrArg (BitVec.extractLsb' 28 28) hpc1
  have hd0 : (keySchedule 0#64 standardShifts).d0 = 0#28 := congrArg (BitVec.extractLsb' 0 28) hpc1
  rw [hparity weakKey 0#64 standardShifts (by decide), keySchedule_rec rfl, hc0, hd0, rotl_zero, keyRecord]
  exact hpc2

theorem subkeys_weakKey : subkeys (keySchedule weakKey standardShifts) = List.replicate 16 0#48 := by
  refine List.ext_getElem (by simp) fun i hi _ => ?_
  rw [List.getElem_replicate]
  simpa [subkeys] using keySchedule_weakKey_k ⟨i, by simpa using hi⟩

/-- Sixteen equal subkeys are the same list backwards, and the directions differ in nothing else. -/
theorem blockEncrypt_weakKey (block : Block) : blockEncrypt weakKey block = blockDecrypt weakKey block := by
  have hseq : subkeys (keySchedule weakKey (shiftAmounts stdParams)) = List.replicate 16 0#48 := subkeys_weakKey
  have hkeys : roundKeys weakKey .enc stdParams = roundKeys weakKey .dec stdParams := by
    simp only [roundKeys, subkeySequence, hseq, List.reverse_replicate]
  simp only [blockEncrypt, blockDecrypt, cipherCore_out, hkeys]

/-- Settles O27: each direction is the other under the reversed subkeys, and the weak key's subkeys are one word sixteen times. -/
theorem blockCipherRoundTrips : Obligations.BlockCipherRoundTrips := by
  refine ⟨fun key block => ⟨blockDecrypt_blockEncrypt key block, blockEncrypt_blockDecrypt key block⟩,
    keySchedule_weakKey_k, fun block => ⟨blockEncrypt_weakKey block, ?_⟩⟩
  calc blockEncrypt weakKey (blockEncrypt weakKey block)
    _ = blockDecrypt weakKey (blockEncrypt weakKey block) := blockEncrypt_weakKey _
    _ = block := blockDecrypt_blockEncrypt weakKey block

/-! ### ENCBLK and DECBLK -/

theorem exec_encblk_of_variantParams {s : State} {vp : VariantParams} (h : variantParams s = some vp) :
    exec .encblk s = .next (s.runBlock .enc vp) := by
  show execEncblk s = _
  rw [execEncblk, h]

theorem exec_decblk_of_variantParams {s : State} {vp : VariantParams} (h : variantParams s = some vp) :
    exec .decblk s = .next (s.runBlock .dec vp) := by
  show execDecblk s = _
  rw [execDecblk, h]

/-- Settles O32: the fields in range are the parameters of the run, and the run's writes, for each direction, are those of the statement. -/
theorem blockCommandsStoreOutputScheduleAndTrace : Obligations.BlockCommandsStoreOutputScheduleAndTrace := by
  intro s vp hnr hswapr hvp
  have hparams : variantParams s = some vp := by
    rw [hvp]
    exact if_neg (by omega)
  exact ⟨exec_encblk_of_variantParams hparams, exec_decblk_of_variantParams hparams⟩

end Sys2Proof.Machine
end

section
/-! SUPPORT. What the chain commands compute in each mode, that decrypting steps undo encrypting ones, and what the other commands leave of a chain (44_mode_chain R160 to R174). -/

namespace Sys2Proof.Machine

/-! ### The chain step as a function of KEY, DIN and CHAIN -/

/-- The output block and the next chain value of one chain step (44_mode_chain R163). -/
def chainOutput (m : Mode) (dir : Dir) (key din c : Block) : Block × Block :=
  chainResult m dir din c
    (cipherCore (coreInput m dir din c).1 key (coreInput m dir din c).2 stdParams).out

theorem State.chainStep_dout_eq_chainOutput (m : Mode) (dir : Dir) (s : State) :
    (s.chainStep m dir).dout = (chainOutput m dir s.key s.din s.chain).1 := State.chainStep_dout m dir s

theorem State.chainStep_chain_eq_chainOutput (m : Mode) (dir : Dir) (s : State) :
    (s.chainStep m dir).chain = (chainOutput m dir s.key s.din s.chain).2 := State.chainStep_chain m dir s

/-- Encrypting, the core runs forwards in every mode (44_mode_chain R160). -/
theorem chainCore_enc (m : Mode) (s : State) :
    chainCore m .enc s = cipherCore (coreInput m .enc s.din s.chain).1 s.key .enc stdParams := by
  cases m with
  | ecb | cbc | cfb | ofb | ctr => rfl

/-- The decrypting step gives the block back and reaches the same chain value (44_mode_chain R172): in ECB and CBC because the core inverts itself, in the other modes because the same core output is XORed twice. -/
theorem chainOutput_dec_enc (m : Mode) (key b c : Block) :
    chainOutput m .dec key (chainOutput m .enc key b c).1 c = (b, (chainOutput m .enc key b c).2) := by
  cases m with
  | ecb => exact congrArg (·, c) (blockDecrypt_blockEncrypt key b)
  | cbc =>
    refine congrArg (·, blockEncrypt key (b ^^^ c)) ?_
    show blockDecrypt key (blockEncrypt key (b ^^^ c)) ^^^ c = b
    rw [blockDecrypt_blockEncrypt, xor_cancel_right]
  | cfb => exact congrArg (·, b ^^^ blockEncrypt key c) (xor_cancel_right _ _)
  | ofb => exact congrArg (·, blockEncrypt key c) (xor_cancel_right _ _)
  | ctr => exact congrArg (·, c + 1#64) (xor_cancel_right _ _)

/-- Everything MBLKE and MBLKD write, but for the two values that depend on the mode. -/
theorem State.chainStep_complete_eq (m : Mode) (dir : Dir) (s : State) :
    (s.chainStep m dir).complete = { s with
      dout := (s.chainStep m dir).complete.dout
      chain := (s.chainStep m dir).complete.chain
      blkcnt := s.blkcnt + 1#32
      ks := keySchedule s.key standardShifts
      tr := if s.blkcnt = 0#32 then (chainCore m dir s).tr else s.tr
      status := { s.status with
        err := .completed, ksvalid := true, trvalid := s.status.trvalid || s.blkcnt == 0#32 } } := by
  rw [State.chainStep_eq]
  rfl

/-! ### Two runs, one encrypting and one decrypting -/

/-- Two states that stand at the same place of two chains, in the same mode, under the same KEY and with the same CHAIN. -/
structure SameChain (s s' : State) : Prop where
  mode : s'.status.mode = s.status.mode
  key : s'.key = s.key
  chain : s'.chain = s.chain

/-- MBLKD on the output of MBLKE gives the block back, and the two chains stay together. -/
theorem SameChain.step {s s' : State} (h : SameChain s s') (b : Block) :
    ∃ t t' : State, exec .mblke (s.setDin b) = .next t ∧ exec .mblkd (s'.setDin t.dout) = .next t' ∧
      SameChain t t' ∧ t'.dout = b := by
  refine ⟨_, _, exec_mblke _, exec_mblkd _, ⟨?_, ?_, ?_⟩, ?_⟩
  · simp [h.mode]
  · simp [h.key]
  · simp [State.chainStep_chain_eq_chainOutput, State.chainStep_dout_eq_chainOutput, h.mode, h.key, h.chain,
      chainOutput_dec_enc]
  · simp [State.chainStep_dout_eq_chainOutput, h.mode, h.key, h.chain, chainOutput_dec_enc]

theorem runChain_cons {i : Instr} {b : Block} {rest outs : List Block} {s t u : State}
    (hstep : exec i (s.setDin b) = .next t) (hrest : runChain i rest t = some (outs, u)) :
    runChain i (b :: rest) s = some (t.dout :: outs, u) := by
  simp only [runChain, hstep, hrest]

theorem SameChain.run_roundTrip {s s' : State} (h : SameChain s s') (blocks : List Block) :
    ∃ (u u' : State) (outs : List Block), runChain .mblke blocks s = some (outs, u) ∧ outs.length = blocks.length ∧
      runChain .mblkd outs s' = some (blocks, u') ∧ SameChain u u' := by
  induction blocks generalizing s s' with
  | nil => exact ⟨s, s', [], rfl, rfl, rfl, h⟩
  | cons b rest ih =>
    obtain ⟨t, t', henc, hdec, htogether, rfl⟩ := h.step b
    obtain ⟨u, u', outs, hruns, hlen, hruns', hend⟩ := ih htogether
    exact ⟨u, u', t.dout :: outs, runChain_cons henc hruns, congrArg (· + 1) hlen, runChain_cons hdec hruns', hend⟩

/-! ### The counter of CTR as bytes -/

/-- The `n` lowest bytes of a number, the least significant first. -/
def lowBytes : (n : Nat) → Nat → List Byte
  | 0, _ => []
  | n + 1, x => BitVec.ofNat 8 x :: lowBytes n (x / 256)

/-- Adding 1 to a number is the increment with carry on its bytes (44_mode_chain R171). -/
theorem lowBytes_succ (n x : Nat) : lowBytes n (x + 1) = incrementBytes (lowBytes n x) := by
  induction n generalizing x with
  | zero => rfl
  | succ n ih =>
    have hwraps : BitVec.ofNat 8 x = 0xFF#8 ↔ x % 256 = 255 := by simp [← BitVec.toNat_inj]
    simp only [lowBytes, incrementBytes]
    by_cases h : BitVec.ofNat 8 x = 0xFF#8
    · have hcarry : (x + 1) / 256 = x / 256 + 1 := by have := hwraps.mp h; omega
      rw [if_pos h, hcarry, ih, BitVec.ofNat_add, h]
      rfl
    · have hkept : (x + 1) / 256 = x / 256 := by have := mt hwraps.mpr h; omega
      rw [if_neg h, hkept, BitVec.ofNat_add]

/-- A byte inside a 64-bit value is a byte of the number it was made from. -/
theorem extractLsb'_ofNat_byte {start : Nat} (h : start + 8 ≤ 64) (x : Nat) :
    (BitVec.ofNat 64 x).extractLsb' start 8 = BitVec.ofNat 8 (x / 2 ^ start) := by
  refine BitVec.eq_of_getLsbD_eq fun i hi => ?_
  have hinside : start + i < 64 := by omega
  simp only [BitVec.getLsbD_extractLsb', BitVec.getLsbD_ofNat, Nat.testBit_div_two_pow, hi, hinside, decide_true,
    Bool.true_and, Nat.add_comm]

theorem bytes8_ofNat (x : Nat) : bytes8 (BitVec.ofNat 64 x) = (lowBytes 8 x).reverse := by
  simp [bytes8, chunk, List.range_succ, lowBytes, extractLsb'_ofNat_byte, Nat.div_div_eq_div_mul]

theorem bytes8_add_one (c : Block) : bytes8 (c + 1#64) = (incrementBytes (bytes8 c).reverse).reverse := by
  have hbytes : bytes8 c = (lowBytes 8 c.toNat).reverse := by rw [← bytes8_ofNat, BitVec.ofNat_toNat, BitVec.setWidth_eq]
  have hsum : c + 1#64 = BitVec.ofNat 64 (c.toNat + 1) := by
    rw [BitVec.ofNat_add, BitVec.ofNat_toNat, BitVec.setWidth_eq]
  rw [hsum, bytes8_ofNat, lowBytes_succ, hbytes, List.reverse_reverse]

/-! ### Commands that do not look at VARIANT and ALTSHIFT -/

/-- A command's outcome on a state, and on the state with other values of the unseen fields: the same next state with those values. -/
def UnseenOutcome (v : Variant) (a : Word) (p : List HostEvent) (r : Response)
    (o o' : Host.Outcome State Fault Refusal) : Prop :=
  ∃ t : State, o = .next t ∧ o' = .next (t.withUnseen v a p r)

section
variable (v : Variant) (a : Word) (p : List HostEvent) (r : Response) (s : State)

theorem chainStep_complete_unseenOutcome (m : Mode) (dir : Dir) :
    UnseenOutcome v a p r (.next (s.chainStep m dir).complete)
      (.next ((s.withUnseen v a p r).chainStep m dir).complete) := by
  rw [State.chainStep_withUnseen]
  exact ⟨_, rfl, rfl⟩

theorem execMinit_unseenOutcome (mode : BitVec 3) :
    UnseenOutcome v a p r (execMinit mode s) (execMinit mode (s.withUnseen v a p r)) := by
  unfold execMinit
  cases modeOfBits mode with
  | none => exact ⟨_, rfl, rfl⟩
  | some m => exact ⟨_, rfl, rfl⟩

theorem execMsgenc_unseenOutcome (mode : BitVec 3) (riv : Bool) :
    UnseenOutcome v a p r (execMsgenc mode riv s) (execMsgenc mode riv (s.withUnseen v a p r)) := by
  have hbuf : (s.withUnseen v a p r).bufBytes = s.bufBytes := rfl
  have hilen : (s.withUnseen v a p r).ilen = s.ilen := rfl
  unfold execMsgenc
  rw [hbuf, hilen]
  cases modeOfBits mode with
  | none => exact ⟨_, rfl, rfl⟩
  | some m =>
    dsimp only
    split
    · exact ⟨_, rfl, rfl⟩
    · exact ⟨_, rfl, congrArg Host.Outcome.next (State.encryptMessage_withUnseen ..)⟩

theorem execMsgdec_unseenOutcome (mode : BitVec 3) :
    UnseenOutcome v a p r (execMsgdec mode s) (execMsgdec mode (s.withUnseen v a p r)) := by
  have hbuf : (s.withUnseen v a p r).bufBytes = s.bufBytes := rfl
  have hilen : (s.withUnseen v a p r).ilen = s.ilen := rfl
  unfold execMsgdec
  rw [hbuf, hilen]
  cases modeOfBits mode with
  | none => exact ⟨_, rfl, rfl⟩
  | some m =>
    dsimp only
    split
    · exact ⟨_, rfl, rfl⟩
    split
    · exact ⟨_, rfl, rfl⟩
    split
    · exact ⟨_, rfl, rfl⟩
    · exact ⟨_, rfl, congrArg Host.Outcome.next (State.decryptMessage_withUnseen ..)⟩

theorem exec_unseenOutcome {i : Instr} (hi : i ∉ [Instr.encblk, .decblk, .sreset]) :
    UnseenOutcome v a p r (exec i s) (exec i (s.withUnseen v a p r)) := by
  cases i with
  | encblk | decblk | sreset => exact absurd (by decide) hi
  | nop | keyexp | ivgen | clrerr => exact ⟨_, rfl, rfl⟩
  | minit mode => exact execMinit_unseenOutcome v a p r s mode
  | mblke => exact chainStep_complete_unseenOutcome v a p r s _ .enc
  | mblkd => exact chainStep_complete_unseenOutcome v a p r s _ .dec
  | msgenc mode riv => exact execMsgenc_unseenOutcome v a p r s mode riv
  | msgdec mode => exact execMsgdec_unseenOutcome v a p r s mode

end

/-! ### The statements -/

/-- Settles O34. -/
theorem minitStartsAChain : Obligations.MinitStartsAChain := fun s m => exec_minit m s

/-- Settles O35: the core input is the multiplexer's, and the core runs forwards in every mode. -/
theorem encryptingChainStepFollowsTheMode : Obligations.EncryptingChainStepFollowsTheMode := by
  refine ⟨by decide, fun s => ⟨_, (coreInput s.status.mode .enc s.din s.chain).1, (chainCore s.status.mode .enc s).out,
    exec_mblke s, congrArg CoreResult.out (chainCore_enc _ s), ?_, ?_⟩⟩
  · rw [State.complete_dout, State.complete_chain, State.chainStep_dout, State.chainStep_chain]
    cases s.status.mode with
    | ecb | cbc | cfb | ofb | ctr => exact ⟨rfl, rfl, rfl⟩
  · rw [← chainCore_enc]
    exact State.chainStep_complete_eq _ .enc s

/-- Settles O36: the core input and direction are the multiplexer's. -/
theorem decryptingChainStepFollowsTheMode : Obligations.DecryptingChainStepFollowsTheMode := by
  refine ⟨by decide, fun s => ⟨_, (coreInput s.status.mode .dec s.din s.chain).1,
    (coreInput s.status.mode .dec s.din s.chain).2, (chainCore s.status.mode .dec s).out,
    exec_mblkd s, rfl, ?_, State.chainStep_complete_eq _ .dec s⟩⟩
  rw [State.complete_dout, State.complete_chain, State.chainStep_dout, State.chainStep_chain]
  cases s.status.mode with
  | ecb | cbc | cfb | ofb | ctr => exact ⟨rfl, rfl, rfl, rfl⟩

/-- Settles O37: in OFB and CTR the multiplexer ignores the direction. -/
theorem streamModesHaveOneDirection : Obligations.StreamModesHaveOneDirection := by
  intro s hm
  rw [exec_mblke, exec_mblkd]
  obtain h | h := hm <;> rw [h] <;> rfl

/-- Settles O38: the number's increment is the increment of its bytes with carry (`lowBytes_succ`). -/
theorem ctrIncrementCarriesBytewise : Obligations.CtrIncrementCarriesBytewise := by
  refine ⟨fun s hm => ⟨_, _, exec_mblke s, exec_mblkd s, ?_, ?_⟩, bytes8_add_one⟩ <;>
    rw [State.complete_chain, State.chainStep_chain, hm] <;> rfl

/-- Settles O39: MINIT puts both runs at the same place of a chain, and each pair of steps keeps them together. -/
theorem chainRoundTripsInEveryMode : Obligations.ChainRoundTripsInEveryMode := by
  intro m blocks s s' hkey hiv
  have hstart : SameChain (s.startChain m).complete (s'.startChain m).complete := ⟨rfl, hkey, hiv⟩
  obtain ⟨u, u', outs, henc, hlen, hdec, hend⟩ := hstart.run_roundTrip blocks
  exact ⟨_, _, u, u', outs, exec_minit m s, exec_minit m s', henc, hlen, hdec, hend.chain⟩

/-- Settles O56, command by command: none of their named operations touches the chain's registers or a buffer. -/
theorem chainSurvivesOtherCommands : Obligations.ChainSurvivesOtherCommands := by
  intro i s t hi he
  simp only [List.mem_cons, List.not_mem_nil, or_false] at hi
  obtain rfl | rfl | rfl | rfl | rfl | rfl := hi
  · obtain ⟨-, hx⟩ | ⟨vp, -, hx⟩ := exec_encblk_cases s <;> cases hx.symm.trans he <;>
      exact ⟨rfl, rfl, rfl, rfl, fun _ => ⟨rfl, rfl⟩⟩
  · obtain ⟨-, hx⟩ | ⟨vp, -, hx⟩ := exec_decblk_cases s <;> cases hx.symm.trans he <;>
      exact ⟨rfl, rfl, rfl, rfl, fun _ => ⟨rfl, rfl⟩⟩
  all_goals
    cases he
    exact ⟨rfl, rfl, rfl, rfl, fun _ => ⟨rfl, rfl⟩⟩

/-- Settles O57: VARIANT and ALTSHIFT are among the fields that these commands do not look at (`exec_unseenOutcome`). -/
theorem onlyBlockCommandsReadVariant : Obligations.OnlyBlockCommandsReadVariant := by
  intro i s t v a hi he
  have hne : i ≠ .sreset := by rintro rfl; exact hi (by decide)
  obtain ⟨u, hu, hu'⟩ := exec_unseenOutcome v a s.pending s.resp s hi
  cases hu.symm.trans he
  have hinputs := exec_hostInputs hne he
  have hpending : t.pending = s.pending := congrArg HostInputs.pending hinputs
  have hresp : t.resp = s.resp := congrArg HostInputs.resp hinputs
  have hkept : t.withUnseen v a s.pending s.resp = { t with variant := v, altshift := a } := by
    rw [← hpending, ← hresp]
    rfl
  exact hu'.trans (congrArg Host.Outcome.next hkept)

end Sys2Proof.Machine
end

section
/-! SUPPORT. Padding and its removal, and when a whole-message command fails and when it completes (45_mode_message R180 to R184, R192, R193). -/

namespace Sys2Proof.Machine

/-! ### Unpad -/

/-- The `m` bytes at the head of OBUF end in a padding: their last byte is N from 1 to 8, they are at least N, and the last N of them all equal N (45_mode_message R181). -/
def State.EndsInPadding (s : State) (m : Nat) : Prop :=
  m ≠ 0 ∧ 1 ≤ (s.obufByte (m - 1)).toNat ∧ (s.obufByte (m - 1)).toNat ≤ 8 ∧ (s.obufByte (m - 1)).toNat ≤ m ∧
    ∀ j, 1 ≤ j → j ≤ (s.obufByte (m - 1)).toNat → s.obufByte (m - j) = s.obufByte (m - 1)

/-- The engine's test of the last `n` bytes, in rising order of offsets, is one of all distances from the end. -/
theorem all_last_bytes_iff (s : State) {m : Nat} {b : Byte} (hb : b.toNat ≤ m) :
    ((List.range b.toNat).all fun j => (s.obufByte (m - b.toNat + j)).toNat == b.toNat) = true ↔
      ∀ j, 1 ≤ j → j ≤ b.toNat → s.obufByte (m - j) = b := by
  simp only [List.all_eq_true, List.mem_range, beq_iff_eq, BitVec.toNat_inj]
  constructor
  · intro h j hj hjb
    rw [← h (b.toNat - j) (by omega), show m - b.toNat + (b.toNat - j) = m - j by omega]
  · intro h j hj
    rw [show m - b.toNat + j = m - (b.toNat - j) by omega, h (b.toNat - j) (by omega) (by omega)]

theorem unpad_cases (s : State) (m : Nat) :
    (s.EndsInPadding m ∧ unpad s m = (m - (s.obufByte (m - 1)).toNat, false)) ∨
    (¬ s.EndsInPadding m ∧ unpad s m = (m, true)) := by
  unfold unpad
  split
  next hm => exact .inr ⟨fun h => h.1 hm, by rw [hm]⟩
  next hm =>
    dsimp only
    split
    next hout => exact .inr ⟨fun ⟨_, h1, h8, hle, _⟩ => by omega, rfl⟩
    next hin =>
      have hall := all_last_bytes_iff s (m := m) (b := s.obufByte (m - 1)) (by omega)
      split
      next h => exact .inl ⟨⟨hm, by omega, by omega, by omega, hall.mp h⟩, rfl⟩
      next h => exact .inr ⟨fun ⟨_, _, _, _, hbytes⟩ => h (hall.mpr hbytes), rfl⟩

/-- What Pad puts on is a padding (45_mode_message R180). -/
theorem unpad_padded {s : State} {n : Nat} (h : ∀ j, j < padLen n → s.obufByte (n + j) = BitVec.ofNat 8 (padLen n)) :
    unpad s (n + padLen n) = (n, false) := by
  have hpos := padLen_pos n
  have hle := padLen_le n
  have hbyte : ∀ j, 1 ≤ j → j ≤ padLen n → s.obufByte (n + padLen n - j) = BitVec.ofNat 8 (padLen n) := fun j h1 hj => by
    rw [← h (padLen n - j) (by omega), Nat.add_sub_assoc hj]
  have hlast := hbyte 1 (Nat.le_refl 1) hpos
  have hvalue : (s.obufByte (n + padLen n - 1)).toNat = padLen n := by
    rw [hlast, BitVec.toNat_ofNat, Nat.mod_eq_of_lt (by omega)]
  obtain ⟨-, hu⟩ | ⟨hnot, -⟩ := unpad_cases s (n + padLen n)
  · rw [hu, hvalue, Nat.add_sub_cancel]
  · exact absurd ⟨by omega, by omega, by omega, by omega,
      fun j h1 hj => (hbyte j h1 (hvalue ▸ hj)).trans hlast.symm⟩ hnot

/-- The test for a padding looks at the last 8 bytes alone. -/
theorem State.EndsInPadding.of_last_bytes {s t : State} {m : Nat} (hs : s.EndsInPadding m)
    (h : ∀ j, 1 ≤ j → j ≤ 8 → j ≤ m → t.obufByte (m - j) = s.obufByte (m - j)) : t.EndsInPadding m := by
  obtain ⟨hm, h1, h8, hle, hbytes⟩ := hs
  have hlast : t.obufByte (m - 1) = s.obufByte (m - 1) := h 1 (Nat.le_refl 1) (by decide) (by omega)
  refine ⟨hm, by rwa [hlast], by rwa [hlast], by rwa [hlast], fun j hj hjn => ?_⟩
  rw [hlast] at hjn ⊢
  rw [h j hj (by omega) (by omega), hbytes j hj hjn]

theorem unpad_congr {s t : State} {m : Nat}
    (h : ∀ j, 1 ≤ j → j ≤ 8 → j ≤ m → t.obufByte (m - j) = s.obufByte (m - j)) : unpad t m = unpad s m := by
  obtain ⟨hs, hus⟩ | ⟨hs, hus⟩ := unpad_cases s m <;> obtain ⟨ht, hut⟩ | ⟨ht, hut⟩ := unpad_cases t m
  · rw [hus, hut, h 1 (Nat.le_refl 1) (by decide) (Nat.one_le_iff_ne_zero.mpr hs.1)]
  · exact absurd (hs.of_last_bytes h) ht
  · exact absurd (ht.of_last_bytes fun j h1 h8 hm => (h j h1 h8 hm).symm) hs
  · rw [hus, hut]

/-! ### The outcomes of MSGENC and MSGDEC -/

theorem exec_msgenc_of_tooLong {s : State} (h : s.bufBytes < s.ilen.toNat + 16) (m : Mode) (riv : Bool) :
    exec (.msgenc (modeNumber m) riv) s = .next (s.fail .inputFormat) := by
  obtain ⟨hm, -⟩ | ⟨_, -, -, he⟩ | ⟨_, -, hfits, -⟩ := exec_msgenc_cases (modeNumber m) riv s
  · cases hm.symm.trans (modeOfBits_modeNumber m)
  · exact he
  · omega

theorem exec_msgenc_of_fits {s : State} (h : s.ilen.toNat + 16 ≤ s.bufBytes) (m : Mode) (riv : Bool) :
    exec (.msgenc (modeNumber m) riv) s = .next (s.encryptMessage m riv) := by
  obtain ⟨hm, -⟩ | ⟨_, -, hlong, -⟩ | ⟨m', hm, -, he⟩ := exec_msgenc_cases (modeNumber m) riv s
  · cases hm.symm.trans (modeOfBits_modeNumber m)
  · omega
  · cases hm.symm.trans (modeOfBits_modeNumber m)
    exact he

theorem bodyOffset_eq (m : Mode) : bodyOffset m = if m = .ecb then 0 else 8 := by
  cases m with
  | ecb | cbc | cfb | ofb | ctr => rfl

/-- The input of MSGDEC is a body of `k` blocks behind the IV, if the mode has one, and it is in IBUF (45_mode_message R185). -/
structure State.HasBody (s : State) (m : Mode) (k : Nat) : Prop where
  ilen_eq : s.ilen.toNat = bodyOffset m + 8 * k
  nonempty : m ≠ .ecb → 1 ≤ k
  fits : s.ilen.toNat ≤ s.bufBytes

theorem exec_msgdec_of_hasBody {s : State} {m : Mode} {k : Nat} (h : s.HasBody m k) :
    exec (.msgdec (modeNumber m)) s = .next (s.decryptMessage m (8 * k)) := by
  obtain ⟨hlen, hk, hfits⟩ := h
  have hlong : ¬ s.bufBytes < s.ilen.toNat := by omega
  have hshort : ¬ (m ≠ .ecb ∧ s.ilen.toNat < 16) := fun ⟨hm, hlt⟩ => by
    have := hk hm
    rw [bodyOffset_eq, if_neg hm] at hlen
    omega
  have hbody : s.ilen.toNat - bodyOffset m = 8 * k := by omega
  show execMsgdec (modeNumber m) s = _
  unfold execMsgdec
  simp only [modeOfBits_modeNumber, if_neg hlong, if_neg hshort, hbody, Nat.mul_mod_right, ne_eq, not_true_eq_false,
    if_false]

theorem exec_msgenc_fails_or_encrypts (mode : BitVec 3) (riv : Bool) (s : State) :
    (∃ c, exec (.msgenc mode riv) s = .next (s.fail c)) ∨
    (∃ m, modeOfBits mode = some m ∧ exec (.msgenc mode riv) s = .next (s.encryptMessage m riv)) := by
  obtain ⟨-, he⟩ | ⟨_, -, -, he⟩ | ⟨m, hm, -, he⟩ := exec_msgenc_cases mode riv s
  · exact .inl ⟨_, he⟩
  · exact .inl ⟨_, he⟩
  · exact .inr ⟨m, hm, he⟩

theorem exec_msgdec_fails_or_decrypts (mode : BitVec 3) (s : State) :
    (∃ c, exec (.msgdec mode) s = .next (s.fail c)) ∨
    (∃ m k, modeOfBits mode = some m ∧ s.ilen.toNat - bodyOffset m = 8 * k ∧
      exec (.msgdec mode) s = .next (s.decryptMessage m (8 * k))) := by
  obtain ⟨-, he⟩ | ⟨_, _, -, -, he⟩ | ⟨m, hm, -, -, hwhole, he⟩ := exec_msgdec_cases mode s
  · exact .inl ⟨_, he⟩
  · exact .inl ⟨_, he⟩
  · obtain ⟨k, hk⟩ := Nat.dvd_of_mod_eq_zero hwhole
    exact .inr ⟨m, k, hm, hk, hk ▸ he⟩

/-- No command changes a byte of IBUF. -/
theorem exec_ibufByte {i : Instr} {s t : State} (he : exec i s = .next t) (a : Nat) : t.ibufByte a = s.ibufByte a := by
  obtain ⟨-, hibuf, -, -, -, hepoch⟩ := commandsLeaveHostInputsAlone i s t he
  rw [State.ibufByte, hibuf, hepoch]
  rfl

/-! ### The statements -/

/-- Settles O40. -/
theorem msgencTooLongFails : Obligations.MsgencTooLongFails := fun _ m riv h => exec_msgenc_of_tooLong h m riv

/-- Settles O50: the first clause is `unpad_cases`, and the others follow from it. -/
theorem unpadRemovesPaddingAlone : Obligations.UnpadRemovesPaddingAlone := by
  refine ⟨fun s m => ?_, fun s n => unpad_padded, fun s m => ?_, fun s t m => unpad_congr⟩
  · show ((unpad s m).2 = false ↔ s.EndsInPadding m) ∧
      (s.EndsInPadding m → unpad s m = (m - (s.obufByte (m - 1)).toNat, false)) ∧
      (¬ s.EndsInPadding m → unpad s m = (m, true))
    obtain ⟨hs, hu⟩ | ⟨hs, hu⟩ := unpad_cases s m <;> simp [hs, hu]
  · obtain ⟨⟨-, -, h8, -⟩, hu⟩ | ⟨-, hu⟩ := unpad_cases s m
    · rw [hu]
      exact ⟨Nat.sub_le _ _, by dsimp only; omega, nofun⟩
    · rw [hu]
      exact ⟨Nat.le_refl m, Nat.le_add_right m 8, fun _ => rfl⟩

end Sys2Proof.Machine
end

section
/-! SUPPORT. The loop that MSGENC and MSGDEC share, in one definition: it is a host's block-by-block run that also stores each DOUT, and its decrypting form undoes its encrypting form (44_mode_chain R172; 45_mode_message R183, R184, R187). -/

namespace Sys2Proof.Machine

/-! ### The loop -/

/-- `k` passes of a message loop: block `b i` into DIN, one chain step, DOUT to OBUF at `a + 8i`. -/
def blockLoop (m : Mode) (dir : Dir) (a : Nat) (b : Nat → Block) : Nat → State → State
  | 0, s => s
  | k + 1, s =>
    let t := ((blockLoop m dir a b k s).setDin (b k)).chainStep m dir
    t.obufWrite (a + 8 * k) t.dout

/-- MSGENC's loop pads from IBUF, which it does not change. -/
theorem encryptBlocks_eq_blockLoop (m : Mode) (o n k : Nat) (s : State) :
    encryptBlocks m o n k s = blockLoop m .enc o (padBlock s n) k s := by
  induction k with
  | zero => rfl
  | succ k ih => rw [encryptBlocks_succ, padBlock_congr (encryptBlocks_ibufByte m o n k s), ih]; rfl

/-- MSGDEC's loop reads its blocks from IBUF, which it does not change. -/
theorem decryptBlocks_eq_blockLoop (m : Mode) (o k : Nat) (s : State) :
    decryptBlocks m o k s = blockLoop m .dec 0 (fun i => s.ibufRead (o + 8 * i) 8) k s := by
  induction k with
  | zero => rfl
  | succ k ih => rw [decryptBlocks_succ, decryptBlocks_ibufRead, ih, blockLoop, Nat.zero_add]

@[simp] theorem State.chainStep_status_err (m : Mode) (dir : Dir) (s : State) :
    (s.chainStep m dir).status.err = s.status.err := by rw [State.chainStep_eq]

section
variable (m : Mode) (dir : Dir) (a : Nat) (b : Nat → Block) (k : Nat) (s : State)

@[simp] theorem blockLoop_key : (blockLoop m dir a b k s).key = s.key := by
  induction k with
  | zero => rfl
  | succ k ih => simpa [blockLoop] using ih

@[simp] theorem blockLoop_mode : (blockLoop m dir a b k s).status.mode = s.status.mode := by
  induction k with
  | zero => rfl
  | succ k ih => simpa [blockLoop] using ih

@[simp] theorem blockLoop_err : (blockLoop m dir a b k s).status.err = s.status.err := by
  induction k with
  | zero => rfl
  | succ k ih => simpa [blockLoop] using ih

theorem blockLoop_dout :
    (blockLoop m dir a b (k + 1) s).dout = (chainOutput m dir s.key (b k) (blockLoop m dir a b k s).chain).1 := by
  simp [blockLoop, State.chainStep_dout_eq_chainOutput]

theorem blockLoop_chain :
    (blockLoop m dir a b (k + 1) s).chain = (chainOutput m dir s.key (b k) (blockLoop m dir a b k s).chain).2 := by
  simp [blockLoop, State.chainStep_chain_eq_chainOutput]

end

/-! ### Decrypting what was encrypted -/

/-- In ECB, where CHAIN is not looked at, the decrypting step gives the block back whatever the two chain values are. -/
theorem chainOutput_roundTrip {m : Mode} {c c' : Block} (hc : m ≠ .ecb → c' = c) (key b : Block) :
    (chainOutput m .dec key (chainOutput m .enc key b c).1 c').1 = b ∧
      (m ≠ .ecb → (chainOutput m .dec key (chainOutput m .enc key b c).1 c').2 = (chainOutput m .enc key b c).2) := by
  by_cases hm : m = .ecb
  · subst hm
    exact ⟨congrArg Prod.fst (chainOutput_dec_enc .ecb key b c'), fun h => absurd rfl h⟩
  · rw [hc hm, chainOutput_dec_enc]
    exact ⟨rfl, fun _ => rfl⟩

theorem blockLoop_roundTrip {m : Mode} {a a' k : Nat} {b b' : Nat → Block} {s s' : State} (hkey : s'.key = s.key)
    (hchain : m ≠ .ecb → s'.chain = s.chain) (hb : ∀ i, i < k → b' i = (blockLoop m .enc a b (i + 1) s).dout) :
    (m ≠ .ecb → (blockLoop m .dec a' b' k s').chain = (blockLoop m .enc a b k s).chain) ∧
      ∀ i, i < k → (blockLoop m .dec a' b' (i + 1) s').dout = b i := by
  induction k with
  | zero => exact ⟨hchain, nofun⟩
  | succ k ih =>
    obtain ⟨htogether, hblocks⟩ := ih fun i hi => hb i (by omega)
    obtain ⟨hout, hnext⟩ := chainOutput_roundTrip htogether s.key (b k)
    have hlast := (hb k (Nat.lt_succ_self k)).trans (blockLoop_dout ..)
    refine ⟨?_, fun i hi => ?_⟩
    · rwa [blockLoop_chain, blockLoop_chain, hkey, hlast]
    · obtain hi | rfl := Nat.lt_succ_iff_lt_or_eq.mp hi
      · exact hblocks i hi
      · rwa [blockLoop_dout, hkey, hlast]

/-! ### The host's run -/

/-- The command of one chain step (44_mode_chain R164, R165). -/
def chainCommand (dir : Dir) : Instr :=
  match dir with
  | .enc => .mblke
  | .dec => .mblkd

theorem exec_chainCommand (dir : Dir) (s : State) :
    exec (chainCommand dir) s = .next (s.chainStep s.status.mode dir).complete := by
  cases dir with
  | enc | dec => rfl

theorem runChain_concat {i : Instr} {bs outs : List Block} {b : Block} {s u t : State}
    (hrun : runChain i bs s = some (outs, u)) (hstep : exec i (u.setDin b) = .next t) :
    runChain i (bs ++ [b]) s = some (outs ++ [t.dout], t) := by
  induction bs generalizing s outs with
  | nil =>
    cases hrun
    exact runChain_cons hstep rfl
  | cons b' rest ih =>
    obtain ⟨s', hs'⟩ := exec_next i (s.setDin b')
    simp only [runChain, hs'] at hrun
    split at hrun
    next outs' u' hrest =>
      cases hrun
      exact runChain_cons hs' (ih hrest)
    next => cases hrun

/-- `s` with another OBUF, which no chain step looks at. -/
def State.withObuf (obuf : Memory) (s : State) : State := { s with obuf := obuf }

theorem State.chainStep_withObuf (m : Mode) (dir : Dir) (obuf : Memory) (s : State) :
    (s.withObuf obuf).chainStep m dir = (s.chainStep m dir).withObuf obuf := by
  rw [State.chainStep_eq, State.chainStep_eq]
  rfl

theorem State.complete_of_completed {s : State} (h : s.status.err = .completed) : s.complete = s := by
  unfold State.complete
  rw [← h]

/-- The block commands compute what the loop computes, but for the blocks that the loop stores in OBUF (45_mode_message R187). -/
theorem runChain_eq_blockLoop {m : Mode} {s : State} (hmode : s.status.mode = m) (herr : s.status.err = .completed)
    (dir : Dir) (a : Nat) (b : Nat → Block) (obuf : Memory) (k : Nat) :
    runChain (chainCommand dir) ((List.range k).map b) s =
      some ((List.range k).map fun i => (blockLoop m dir a b (i + 1) (s.withObuf obuf)).dout,
        (blockLoop m dir a b k (s.withObuf obuf)).withObuf s.obuf) := by
  induction k with
  | zero => rfl
  | succ k ih =>
    have hmode' : (blockLoop m dir a b k (s.withObuf obuf)).status.mode = m := (blockLoop_mode ..).trans hmode
    have hstep : exec (chainCommand dir) (((blockLoop m dir a b k (s.withObuf obuf)).withObuf s.obuf).setDin (b k)) =
        .next ((blockLoop m dir a b (k + 1) (s.withObuf obuf)).withObuf s.obuf) := by
      rw [exec_chainCommand, State.complete_of_completed]
      · show Host.Outcome.next ((((blockLoop m dir a b k (s.withObuf obuf)).setDin (b k)).withObuf s.obuf).chainStep
          (blockLoop m dir a b k (s.withObuf obuf)).status.mode dir) = _
        rw [hmode', State.chainStep_withObuf]
        rfl
      · rw [State.chainStep_status_err]
        exact (blockLoop_err ..).trans herr
    rw [List.range_succ, List.map_append, List.map_append]
    exact runChain_concat ih hstep

end Sys2Proof.Machine
end

section
/-! SUPPORT. The whole-message commands: how each begins, what its loop leaves, and the statements about MSGENC and MSGDEC (45_mode_message R183 to R189). -/

namespace Sys2Proof.Machine

/-! ### How a message begins -/

/-- MSGENC just before its loop: the IV chosen, the chain started, the IV at the head of OBUF (45_mode_message R183). -/
def State.encryptStart (m : Mode) (riv : Bool) (s : State) : State :=
  (((s.chooseIv m riv).startChain m).complete).prependIv m

/-- MSGDEC just before its loop: the IV split off, the chain started (45_mode_message R184). -/
def State.decryptStart (m : Mode) (s : State) : State := ((s.splitIv m).startChain m).complete

theorem State.chooseIv_eq (m : Mode) (riv : Bool) (s : State) :
    s.chooseIv m riv = { s with
      iv := if m ≠ .ecb ∧ riv = true then Config.draw s.draws else s.iv
      draws := if m ≠ .ecb ∧ riv = true then s.draws + 1 else s.draws } := by
  unfold State.chooseIv
  split <;> rfl

theorem State.chooseIv_of_not {m : Mode} {riv : Bool} (h : m = .ecb ∨ riv = false) (s : State) :
    s.chooseIv m riv = s := by
  obtain rfl | rfl := h
  · rfl
  · exact if_neg fun h => nomatch h.2

theorem State.prependIv_eq (m : Mode) (s : State) : s.prependIv m = s.withObuf (s.prependIv m).obuf := by
  unfold State.prependIv
  split <;> rfl

theorem State.prependIv_obufByte (m : Mode) (s : State) {a : Nat} (h : bodyOffset m ≤ a) :
    (s.prependIv m).obufByte a = s.obufByte a := by
  rw [bodyOffset_eq] at h
  unfold State.prependIv
  split
  next hm =>
    rw [if_neg hm] at h
    exact State.obufByte_obufWrite_other s s.iv (.inr (by omega))
  next => rfl

theorem State.prependIv_obufRead {m : Mode} (hm : m ≠ .ecb) (s : State) : (s.prependIv m).obufRead 0 8 = s.iv := by
  rw [State.prependIv, if_pos hm]
  exact State.obufRead_obufWrite s 0 s.iv

theorem State.splitIv_eq (m : Mode) (s : State) :
    s.splitIv m = { s with iv := if m = .ecb then s.iv else s.ibufRead 0 8 } := by
  unfold State.splitIv
  by_cases hm : m = .ecb
  · rw [if_neg (not_not_intro hm), if_pos hm]
  · rw [if_pos hm, if_neg hm]
    rfl

/-- Everything MSGENC does before its loop. -/
theorem State.encryptStart_eq (m : Mode) (riv : Bool) (s : State) :
    s.encryptStart m riv = { s.chooseIv m riv with
      chain := (s.chooseIv m riv).iv
      blkcnt := 0#32
      obuf := (s.encryptStart m riv).obuf
      status := { s.status with err := .completed, mode := m, trvalid := false } } := by
  have hstatus : (s.chooseIv m riv).status = s.status := by rw [State.chooseIv_eq]
  rw [← hstatus]
  exact State.prependIv_eq m _

/-- Everything MSGDEC does before its loop. -/
theorem State.decryptStart_eq (m : Mode) (s : State) :
    s.decryptStart m = { s with
      iv := if m = .ecb then s.iv else s.ibufRead 0 8
      chain := if m = .ecb then s.iv else s.ibufRead 0 8
      blkcnt := 0#32
      status := { s.status with err := .completed, mode := m, trvalid := false } } := by
  rw [State.decryptStart, State.splitIv_eq]
  rfl

@[simp] theorem State.encryptStart_ibufByte (m : Mode) (riv : Bool) (s : State) (a : Nat) :
    (s.encryptStart m riv).ibufByte a = s.ibufByte a := by
  rw [State.encryptStart_eq, State.chooseIv_eq]
  rfl

theorem State.encryptStart_padBlock (m : Mode) (riv : Bool) (s : State) (n : Nat) :
    padBlock (s.encryptStart m riv) n = padBlock s n := funext (padBlock_congr (s.encryptStart_ibufByte m riv) n)

@[simp] theorem State.encryptStart_key (m : Mode) (riv : Bool) (s : State) : (s.encryptStart m riv).key = s.key := by
  rw [State.encryptStart_eq, State.chooseIv_eq]

@[simp] theorem State.encryptStart_blkcnt (m : Mode) (riv : Bool) (s : State) :
    (s.encryptStart m riv).blkcnt = 0#32 := by
  rw [State.encryptStart_eq]

@[simp] theorem State.decryptStart_ibufRead (m : Mode) (s : State) (a n : Nat) :
    (s.decryptStart m).ibufRead a n = s.ibufRead a n := by
  rw [State.decryptStart_eq]
  rfl

/-! ### What a message leaves -/

/-- Everything MSGENC can change, and what it leaves in the registers that do not depend on the cipher. -/
theorem State.encryptMessage_frame (m : Mode) (riv : Bool) (s : State) :
    ∃ dout chain tr obuf, s.encryptMessage m riv = { s.chooseIv m riv with
      din := padBlock s s.ilen.toNat (s.ilen.toNat / 8), dout := dout, chain := chain, tr := tr, obuf := obuf
      blkcnt := BitVec.ofNat 32 (s.ilen.toNat / 8 + 1)
      olen := BitVec.ofNat 32 (bodyOffset m + 8 * (s.ilen.toNat / 8 + 1))
      ks := keySchedule s.key standardShifts
      status := { s.status with err := .completed, trvalid := true, ksvalid := true, mode := m } } := by
  have hn : s.ilen.toNat / 8 < 2 ^ 32 := by omega
  have hdin := encryptBlocks_din m (bodyOffset m) s.ilen.toNat (s.ilen.toNat / 8) (s.encryptStart m riv)
  have htr := (encryptBlocks_tr m (bodyOffset m) s.ilen.toNat (s.ilen.toNat / 8)
    (s.encryptStart_blkcnt m riv) hn).2
  obtain ⟨din, dout, chain, tr, obuf, trvalid, h⟩ :=
    encryptBlocks_frame m (bodyOffset m) s.ilen.toNat (s.ilen.toNat / 8 + 1) (s.encryptStart m riv)
  rw [h] at hdin htr
  refine ⟨dout, chain, tr, obuf, ?_⟩
  show ((encryptBlocks m (bodyOffset m) s.ilen.toNat (padBlocks s.ilen.toNat) (s.encryptStart m riv)).setOlen
    (bodyOffset m + 8 * padBlocks s.ilen.toNat)).complete = _
  rw [padBlocks_eq, h, ← s.encryptStart_padBlock m riv, ← hdin, ← s.encryptStart_key m riv,
    s.encryptStart_eq]
  subst htr
  simp [State.setOlen, State.complete]

/-- RIV chooses the IV and nothing else. -/
theorem State.encryptMessage_chooseIv (m : Mode) (riv : Bool) (s : State) :
    s.encryptMessage m riv = (s.chooseIv m riv).encryptMessage m false := by
  have hilen : (s.chooseIv m riv).ilen = s.ilen := by rw [State.chooseIv_eq]
  rw [State.encryptMessage, State.encryptMessage, hilen, State.chooseIv_of_not (riv := false) (.inr rfl)]

/-- MSGDEC's answer to Unpad: the loop's OBUF is OBUF at the end (45_mode_message R181). -/
theorem State.unpad_decryptMessage (m : Mode) (k : Nat) (s : State) :
    unpad (s.decryptMessage m (8 * k)) (8 * k) = unpad (decryptBlocks m (bodyOffset m) k (s.decryptStart m)) (8 * k) := by
  refine unpad_congr fun j _ _ _ => ?_
  rw [State.decryptMessage, Nat.mul_div_cancel_left k (by decide)]
  rfl

theorem State.decryptMessage_eq (m : Mode) (k : Nat) (s : State) :
    s.decryptMessage m (8 * k) = (((decryptBlocks m (bodyOffset m) k (s.decryptStart m)).setOlen
      (unpad (s.decryptMessage m (8 * k)) (8 * k)).1).setPadinv (unpad (s.decryptMessage m (8 * k)) (8 * k)).2).complete := by
  rw [State.unpad_decryptMessage, State.decryptMessage, Nat.mul_div_cancel_left k (by decide)]
  rfl

/-- Everything MSGDEC can change, and what it leaves in the registers that do not depend on the cipher. -/
theorem State.decryptMessage_frame (m : Mode) (k : Nat) (s : State) :
    ∃ din dout chain tr obuf trvalid, s.decryptMessage m (8 * k) = { s with
      iv := if m = .ecb then s.iv else s.ibufRead 0 8
      din := din, dout := dout, chain := chain, tr := tr, obuf := obuf
      blkcnt := BitVec.ofNat 32 k
      olen := BitVec.ofNat 32 (unpad (s.decryptMessage m (8 * k)) (8 * k)).1
      ks := if k = 0 then s.ks else keySchedule s.key standardShifts
      status := { s.status with
        err := .completed, mode := m, trvalid := trvalid, ksvalid := s.status.ksvalid || decide (k ≠ 0)
        padinv := (unpad (s.decryptMessage m (8 * k)) (8 * k)).2 } } := by
  obtain ⟨din, dout, chain, tr, obuf, trvalid, h⟩ := decryptBlocks_frame m (bodyOffset m) k (s.decryptStart m)
  refine ⟨din, dout, chain, tr, obuf, trvalid, ?_⟩
  conv_lhs => rw [State.decryptMessage_eq, h, State.decryptStart_eq]
  simp [State.setOlen, State.setPadinv, State.complete]

/-- What MSGDEC leaves where it decrypts at least one block. -/
theorem State.decryptMessage_succ (m : Mode) {k : Nat} (hk : k < 2 ^ 32) (s : State) :
    (s.decryptMessage m (8 * (k + 1))).status.trvalid = true ∧
      (s.decryptMessage m (8 * (k + 1))).din = s.ibufRead (bodyOffset m + 8 * k) 8 ∧
      (s.decryptMessage m (8 * (k + 1))).tr =
        (chainCore m .dec ((s.decryptStart m).setDin (s.ibufRead (bodyOffset m) 8))).tr := by
  have hdin := decryptBlocks_din m (bodyOffset m) k (s.decryptStart m)
  have hstart : (s.decryptStart m).blkcnt = 0#32 := by rw [State.decryptStart_eq]
  obtain ⟨htr, htrvalid⟩ := decryptBlocks_tr m (bodyOffset m) k hstart hk
  rw [State.decryptStart_ibufRead] at hdin htr
  rw [State.decryptMessage_eq]
  exact ⟨htrvalid, hdin, htr⟩

/-- MSGDEC of an empty body decrypts nothing (45_mode_message R184). -/
theorem State.decryptMessage_zero (m : Mode) (s : State) :
    s.decryptMessage m (8 * 0) = (((s.decryptStart m).setOlen 0).setPadinv true).complete := rfl

/-- The trace after MSGENC is that of its first block. -/
theorem State.encryptMessage_tr (m : Mode) (riv : Bool) (s : State) :
    (s.encryptMessage m riv).tr =
      (chainCore m .enc ((s.encryptStart m riv).setDin (padBlock s s.ilen.toNat 0))).tr := by
  rw [← s.encryptStart_padBlock m riv]
  refine Eq.trans ?_ (encryptBlocks_tr m (bodyOffset m) s.ilen.toNat (s.ilen.toNat / 8)
    (s.encryptStart_blkcnt m riv) (by omega)).1
  rw [← padBlocks_eq]
  rfl

@[simp] theorem State.encryptMessage_iv (m : Mode) (riv : Bool) (s : State) :
    (s.encryptMessage m riv).iv = (s.chooseIv m riv).iv := by
  obtain ⟨_, _, _, _, h⟩ := s.encryptMessage_frame m riv
  rw [h]

@[simp] theorem State.decryptMessage_iv (m : Mode) (k : Nat) (s : State) :
    (s.decryptMessage m (8 * k)).iv = if m = .ecb then s.iv else s.ibufRead 0 8 := by
  obtain ⟨_, _, _, _, _, _, h⟩ := s.decryptMessage_frame m k
  rw [h]

/-! ### What a message leaves in OBUF -/

theorem State.encryptMessage_obufByte (m : Mode) (riv : Bool) (s : State) (a : Nat) :
    (s.encryptMessage m riv).obufByte a =
      (encryptBlocks m (bodyOffset m) s.ilen.toNat (padBlocks s.ilen.toNat) (s.encryptStart m riv)).obufByte a := rfl

theorem State.decryptMessage_obufByte (m : Mode) (k : Nat) (s : State) (a : Nat) :
    (s.decryptMessage m (8 * k)).obufByte a = (decryptBlocks m (bodyOffset m) k (s.decryptStart m)).obufByte a := by
  rw [State.decryptMessage_eq]
  rfl

/-- The IV stands before the body and is not overwritten (45_mode_message R185). -/
theorem State.encryptMessage_obufRead_iv {m : Mode} (hm : m ≠ .ecb) (riv : Bool) (s : State) :
    (s.encryptMessage m riv).obufRead 0 8 = (s.chooseIv m riv).iv := by
  refine Eq.trans (bytesValue_congr fun j hj => ?_) (State.prependIv_obufRead hm ((s.chooseIv m riv).startChain m).complete)
  rw [State.encryptMessage_obufByte]
  refine encryptBlocks_obufByte_other _ _ _ _ _ (.inl ?_)
  rw [bodyOffset_eq, if_neg hm]
  omega

theorem State.encryptMessage_obufByte_beyond (m : Mode) (riv : Bool) (s : State) {a : Nat}
    (h : bodyOffset m + 8 * padBlocks s.ilen.toNat ≤ a) : (s.encryptMessage m riv).obufByte a = s.obufByte a := by
  rw [State.encryptMessage_obufByte, encryptBlocks_obufByte_other _ _ _ _ _ (.inr h), State.encryptStart,
    State.prependIv_obufByte _ _ (by omega), State.chooseIv_eq]
  rfl

theorem State.decryptMessage_obufByte_beyond (m : Mode) (k : Nat) (s : State) {a : Nat} (h : 8 * k ≤ a) :
    (s.decryptMessage m (8 * k)).obufByte a = s.obufByte a := by
  rw [State.decryptMessage_obufByte, decryptBlocks_obufByte_other _ _ _ _ h, State.decryptStart_eq]
  rfl

/-- MSGENC by the shared loop; its last write of ERR repeats that of MINIT. -/
theorem State.encryptMessage_eq_blockLoop (m : Mode) (riv : Bool) (s : State) :
    s.encryptMessage m riv = (blockLoop m .enc (bodyOffset m) (padBlock s s.ilen.toNat) (padBlocks s.ilen.toNat)
      (s.encryptStart m riv)).setOlen (bodyOffset m + 8 * padBlocks s.ilen.toNat) := by
  rw [← s.encryptStart_padBlock m riv, ← encryptBlocks_eq_blockLoop]
  refine State.complete_of_completed (s := (encryptBlocks ..).setOlen _) ?_
  show (encryptBlocks m (bodyOffset m) s.ilen.toNat (padBlocks s.ilen.toNat) (s.encryptStart m riv)).status.err = _
  rw [encryptBlocks_eq_blockLoop, blockLoop_err, State.encryptStart_eq]

/-- Block `i` of MSGENC's body is the DOUT of the loop's pass `i`. -/
theorem State.encryptMessage_obufRead (m : Mode) (riv : Bool) (s : State) {i : Nat} (hi : i < padBlocks s.ilen.toNat) :
    (s.encryptMessage m riv).obufRead (bodyOffset m + 8 * i) 8 =
      (blockLoop m .enc (bodyOffset m) (padBlock s s.ilen.toNat) (i + 1) (s.encryptStart m riv)).dout := by
  rw [← s.encryptStart_padBlock m riv, ← encryptBlocks_eq_blockLoop, ← encryptBlocks_obufRead _ _ _ _ hi]
  rfl

/-- Block `i` of the body of a message in IBUF (45_mode_message R184). -/
def State.bodyBlock (s : State) (m : Mode) (i : Nat) : Block := s.ibufRead (bodyOffset m + 8 * i) 8

theorem decryptBlocks_decryptStart (m : Mode) (k : Nat) (s : State) :
    decryptBlocks m (bodyOffset m) k (s.decryptStart m) = blockLoop m .dec 0 (s.bodyBlock m) k (s.decryptStart m) := by
  rw [decryptBlocks_eq_blockLoop]
  simp only [State.decryptStart_ibufRead]
  rfl

/-- MSGDEC by the shared loop; its last write of ERR repeats that of MINIT. -/
theorem State.decryptMessage_eq_blockLoop (m : Mode) (k : Nat) (s : State) :
    s.decryptMessage m (8 * k) = ((blockLoop m .dec 0 (s.bodyBlock m) k (s.decryptStart m)).setOlen
      (unpad (s.decryptMessage m (8 * k)) (8 * k)).1).setPadinv (unpad (s.decryptMessage m (8 * k)) (8 * k)).2 := by
  rw [← decryptBlocks_decryptStart]
  refine (s.decryptMessage_eq m k).trans (State.complete_of_completed ?_)
  show (decryptBlocks m (bodyOffset m) k (s.decryptStart m)).status.err = _
  rw [decryptBlocks_decryptStart, blockLoop_err, State.decryptStart_eq]

theorem State.decryptMessage_obufRead (m : Mode) (s : State) {i k : Nat} (hi : i < k) :
    (s.decryptMessage m (8 * k)).obufRead (8 * i) 8 =
      (blockLoop m .dec 0 (s.bodyBlock m) (i + 1) (s.decryptStart m)).dout := by
  rw [← decryptBlocks_decryptStart, ← decryptBlocks_obufRead _ _ _ hi]
  exact bytesValue_congr fun j _ => s.decryptMessage_obufByte m k _

/-! ### The statements -/

/-- Settles O41: all but the IV in OBUF is `State.encryptMessage_frame`. -/
theorem msgencCompletesWithLengthsAndIv : Obligations.MsgencCompletesWithLengthsAndIv := by
  intro s m riv hfits
  obtain ⟨_, _, _, _, h⟩ := s.encryptMessage_frame m riv
  refine ⟨_, exec_msgenc_of_fits hfits m riv, ?_, ?_, ?_, ?_, fun hm => ?_, ?_, ?_⟩
  · rw [h, ← bodyOffset_eq]
  · rw [h]
  · rw [h]
  · rw [State.encryptMessage_iv, State.chooseIv_eq]
  · rw [State.encryptMessage_iv, State.encryptMessage_obufRead_iv hm]
  · rw [h]
  · rw [h]

/-- Settles O42: a failure records itself alone, and a completed MSGENC changes what `State.encryptMessage_frame` lists. -/
theorem msgencFrame : Obligations.MsgencFrame := by
  intro s t mode riv he
  have hibufByte := exec_ibufByte he
  obtain ⟨hinputs, -, hbuf, hpending, hresp, hepoch⟩ := commandsLeaveHostInputsAlone _ s t he
  obtain ⟨hkey, hilen, hvariant, haltshift⟩ := hinputs nofun
  obtain ⟨c, hx⟩ | ⟨m, hm, hx⟩ := exec_msgenc_fails_or_encrypts mode riv s <;> cases hx.symm.trans he
  · exact ⟨rfl, rfl, rfl, rfl, rfl, rfl, rfl, rfl, rfl, hibufByte, fun _ _ => ⟨fun _ => ⟨rfl, rfl⟩, fun _ _ => rfl⟩⟩
  · obtain ⟨_, _, _, _, h⟩ := s.encryptMessage_frame m riv
    refine ⟨hvariant, haltshift, hilen, hkey, by rw [h], hbuf, hpending, hresp, hepoch, hibufByte, fun m' hm' => ?_⟩
    cases hm.symm.trans hm'
    refine ⟨fun hiv => ?_, fun a ha => s.encryptMessage_obufByte_beyond m riv ha⟩
    rw [h, State.chooseIv_of_not hiv]
    exact ⟨rfl, rfl⟩

/-- Settles O43: MINIT leaves the state in which the loop begins, but for the IV in OBUF, and the loop is the host's run. -/
theorem msgencEqualsBlockCommands : Obligations.MsgencEqualsBlockCommands := by
  intro s m hfits
  have hstart : (s.startChain m).complete.withObuf (s.encryptStart m false).obuf = s.encryptStart m false := by
    rw [State.encryptStart, State.chooseIv_of_not (.inr rfl), ← State.prependIv_eq]
  have hrun := runChain_eq_blockLoop (m := m) (s := (s.startChain m).complete) rfl rfl .enc (bodyOffset m)
    (padBlock s s.ilen.toNat) (s.encryptStart m false).obuf (padBlocks s.ilen.toNat)
  rw [hstart] at hrun
  refine ⟨_, _, _, _, exec_minit m s, hrun, exec_msgenc_of_fits hfits m false, by simp, fun i hi => ?_, ?_⟩
  · rw [State.encryptMessage_obufRead m false s (by simpa using hi)]
    simp
  · rw [State.encryptMessage_eq_blockLoop]
    rfl

/-- Settles O44: the draw is MSGENC's first write, and the bit is looked at nowhere else. -/
theorem msgencRandomIvIsADrawFirst : Obligations.MsgencRandomIvIsADrawFirst := by
  intro s m hfits
  refine ⟨fun hm => ?_, ?_⟩
  · rw [exec_msgenc_of_fits hfits, State.encryptMessage_chooseIv, State.chooseIv, if_pos ⟨hm, rfl⟩]
    exact (exec_msgenc_of_fits (s := s.drawIv) hfits m false).symm
  · rw [exec_msgenc_of_fits hfits, exec_msgenc_of_fits hfits, State.encryptMessage_chooseIv .ecb true,
      State.chooseIv_of_not (.inl rfl)]

/-- Settles O46: where there is no block the loop does nothing, and else the first block's pass sets the flags. -/
theorem msgdecCompletesWithLengthsAndIv : Obligations.MsgdecCompletesWithLengthsAndIv := by
  intro s m k hlen hk hfits
  have hbody : s.HasBody m k := ⟨by rw [hlen, bodyOffset_eq], hk, hfits⟩
  obtain ⟨_, _, _, _, _, _, h⟩ := s.decryptMessage_frame m k
  refine ⟨_, exec_msgdec_of_hasBody hbody, s.decryptMessage_iv m k, by rw [h], congrArg State.olen h,
    congrArg (·.status.padinv) h, by rw [h], by rw [h], by rw [h], ?_, by rw [h], ?_, fun hne => ⟨by rw [h, if_neg hne], ?_⟩⟩
  · cases k with
    | zero => rfl
    | succ k => exact (s.decryptMessage_succ m (by omega)).1
  · rintro rfl
    rw [State.decryptMessage_zero, State.decryptStart_eq]
    exact ⟨rfl, rfl, rfl, rfl, rfl⟩
  · obtain ⟨k, rfl⟩ := Nat.exists_eq_succ_of_ne_zero hne
    obtain ⟨-, hdin, -⟩ := s.decryptMessage_succ m (k := k) (by omega)
    rwa [bodyOffset_eq] at hdin

/-- Settles O47: a failure records itself alone, and a completed MSGDEC changes what `State.decryptMessage_frame` lists. -/
theorem msgdecFrame : Obligations.MsgdecFrame := by
  intro s t mode he
  have hibufByte := exec_ibufByte he
  obtain ⟨hinputs, -, hbuf, hpending, hresp, hepoch⟩ := commandsLeaveHostInputsAlone _ s t he
  obtain ⟨hkey, hilen, hvariant, haltshift⟩ := hinputs nofun
  obtain ⟨c, hx⟩ | ⟨m, k, hm, hlen, hx⟩ := exec_msgdec_fails_or_decrypts mode s <;> cases hx.symm.trans he
  · exact ⟨rfl, rfl, rfl, rfl, rfl, rfl, rfl, rfl, rfl, hibufByte, fun _ _ => ⟨fun _ => rfl, fun _ _ => rfl⟩⟩
  · obtain ⟨_, _, _, _, _, _, h⟩ := s.decryptMessage_frame m k
    refine ⟨hvariant, haltshift, hilen, hkey, hbuf, hpending, hresp, hepoch, by rw [h], hibufByte, fun m' hm' => ?_⟩
    cases hm.symm.trans hm'
    refine ⟨fun hecb => ?_, fun a ha => s.decryptMessage_obufByte_beyond m k (hlen ▸ ha)⟩
    rw [State.decryptMessage_iv, if_pos hecb]

/-- Settles O48: MINIT leaves the state in which the loop begins, and the loop is the host's run. -/
theorem msgdecEqualsBlockCommands : Obligations.MsgdecEqualsBlockCommands := by
  intro s m k hlen hk hfits
  have hbody : s.HasBody m k := ⟨by rw [hlen, bodyOffset_eq], hk, hfits⟩
  have hstart : exec (.minit (modeNumber m)) { s with iv := if m = .ecb then s.iv else s.ibufRead 0 8 } =
      .next (s.decryptStart m) := by
    rw [State.decryptStart, State.splitIv_eq]
    exact exec_minit m _
  have hmode : (s.decryptStart m).status.mode = m := by rw [State.decryptStart_eq]
  have herr : (s.decryptStart m).status.err = .completed := by rw [State.decryptStart_eq]
  have hrun := runChain_eq_blockLoop hmode herr .dec 0 (s.bodyBlock m) (s.decryptStart m).obuf k
  rw [← bodyOffset_eq]
  refine ⟨_, _, _, _, hstart, hrun, exec_msgdec_of_hasBody hbody, by simp, fun i hi => ?_, ?_⟩
  · rw [State.decryptMessage_obufRead m s (by simpa using hi)]
    simp [State.withObuf]
  · rw [State.decryptMessage_eq_blockLoop]
    rfl

/-- Settles O49: the loop's first pass stores its trace, and no later pass does. -/
theorem messageTraceIsTheFirstBlocks : Obligations.MessageTraceIsTheFirstBlocks := by
  intro s t m
  refine ⟨fun riv hfits he => ?_, fun k hlen hk hfits he => ?_⟩
  · cases (exec_msgenc_of_fits hfits m riv).symm.trans he
    rw [State.encryptMessage_tr, chainCore_enc, State.encryptMessage_iv, State.encryptStart_eq, State.chooseIv_eq]
    cases m with
    | ecb | cbc | cfb | ofb | ctr => rfl
  · have hbody : s.HasBody m k := ⟨by rw [hlen, bodyOffset_eq], fun _ => hk, hfits⟩
    cases (exec_msgdec_of_hasBody hbody).symm.trans he
    obtain ⟨k, rfl⟩ := Nat.exists_eq_add_of_le' hk
    obtain ⟨-, -, htr⟩ := s.decryptMessage_succ m (k := k) (by omega)
    rw [htr, State.decryptMessage_iv, State.decryptStart_eq]
    cases m with
    | ecb | cbc | cfb | ofb | ctr => rfl

end Sys2Proof.Machine
end

section
/-! SUPPORT. The message round trip: MSGDEC on what MSGENC left in OBUF (45_mode_message R186). -/

namespace Sys2Proof.Machine

/-- The bytes of two equal values are equal. -/
theorem byte_eq_of_bytesValue_eq {f g : Nat → Byte} {a a' n : Nat} (h : bytesValue f a n = bytesValue g a' n) {j : Nat}
    (hj : j < n) : f (a + j) = g (a' + j) := by
  rw [← bytesValue_byte f a n j hj, h, bytesValue_byte g a' n j hj]

/-- Where OBUF holds the padded payload, Unpad gives the payload's length and the payload's bytes stand before it (45_mode_message R180 to R182). -/
theorem unpad_of_paddedBlocks {s u : State} {n : Nat}
    (h : ∀ i, i < padBlocks n → u.obufRead (8 * i) 8 = padBlock s n i) :
    unpad u (8 * padBlocks n) = (n, false) ∧ ∀ a, a < n → u.obufByte a = s.ibufByte a := by
  have hlen := eight_padBlocks n
  have hbyte : ∀ a, a < n + padLen n → u.obufByte a = padByte s n a := fun a ha => by
    have := byte_eq_of_bytesValue_eq (h (a / 8) (by omega)) (Nat.mod_lt a (by decide))
    rwa [Nat.div_add_mod] at this
  refine ⟨?_, fun a ha => ?_⟩
  · rw [hlen]
    refine unpad_padded fun j hj => ?_
    rw [hbyte (n + j) (by omega), padByte, if_neg (by omega)]
  · rw [hbyte a (by omega), padByte, if_pos ha]

/-- The message that MSGENC leaves in OBUF, put in another engine's IBUF (45_mode_message R186). -/
structure State.Received (s' t : State) : Prop where
  ilen_eq : s'.ilen = t.olen
  bytes : ∀ a, a < t.olen.toNat → s'.ibufByte a = t.obufByte a

theorem State.Received.ibufRead_eq {s' t : State} (h : s'.Received t) {a n : Nat} (hn : a + n ≤ t.olen.toNat) :
    s'.ibufRead a n = t.obufRead a n := bytesValue_congr fun _ _ => h.bytes _ (by omega)

section
variable {s s' : State} {m : Mode} {riv : Bool} (hfits : s.ilen.toNat + 16 ≤ s.bufBytes) (hbuf : s.bufBytes ≤ 65536)

include hfits hbuf

theorem State.encryptMessage_olen :
    (s.encryptMessage m riv).olen.toNat = bodyOffset m + 8 * padBlocks s.ilen.toNat := by
  have := bodyOffset_le m
  have := padLen_le s.ilen.toNat
  have := eight_padBlocks s.ilen.toNat
  rw [State.encryptMessage_eq_blockLoop]
  exact (BitVec.toNat_ofNat _ 32).trans (Nat.mod_eq_of_lt (by omega))

theorem State.Received.hasBody (h : s'.Received (s.encryptMessage m riv)) (hbuf' : s'.bufBytes = s.bufBytes) :
    s'.HasBody m (padBlocks s.ilen.toNat) := by
  have := bodyOffset_le m
  have := padLen_pos s.ilen.toNat
  have := padLen_le s.ilen.toNat
  have := eight_padBlocks s.ilen.toNat
  have hilen := (congrArg BitVec.toNat h.ilen_eq).trans (State.encryptMessage_olen hfits hbuf)
  exact ⟨hilen, fun _ => by omega, by omega⟩

theorem State.Received.iv_eq (h : s'.Received (s.encryptMessage m riv)) (hm : m ≠ .ecb) :
    s'.ibufRead 0 8 = (s.chooseIv m riv).iv := by
  rw [h.ibufRead_eq, State.encryptMessage_obufRead_iv hm]
  rw [State.encryptMessage_olen hfits hbuf, bodyOffset_eq, if_neg hm]
  omega

/-- MSGDEC of a received message leaves the padded payload in OBUF. -/
theorem State.Received.decrypted (h : s'.Received (s.encryptMessage m riv)) (hkey : s'.key = s.key) {i : Nat}
    (hi : i < padBlocks s.ilen.toNat) :
    (s'.decryptMessage m (8 * padBlocks s.ilen.toNat)).obufRead (8 * i) 8 = padBlock s s.ilen.toNat i := by
  have hkey' : (s'.decryptStart m).key = (s.encryptStart m riv).key := by
    rw [State.encryptStart_key, State.decryptStart_eq]
    exact hkey
  have hchain : m ≠ .ecb → (s'.decryptStart m).chain = (s.encryptStart m riv).chain := fun hm => by
    rw [State.decryptStart_eq, State.encryptStart_eq, ← h.iv_eq hfits hbuf hm]
    exact if_neg hm
  have hblocks : ∀ j, j < padBlocks s.ilen.toNat → s'.bodyBlock m j =
      (blockLoop m .enc (bodyOffset m) (padBlock s s.ilen.toNat) (j + 1) (s.encryptStart m riv)).dout := fun j hj => by
    rw [State.bodyBlock, h.ibufRead_eq, State.encryptMessage_obufRead m riv s hj]
    rw [State.encryptMessage_olen hfits hbuf]
    omega
  rw [State.decryptMessage_obufRead m s' hi]
  exact (blockLoop_roundTrip hkey' hchain hblocks).2 i hi

end

/-- Settles O51: the loop run backwards gives the padded payload, and Unpad takes off the padding that Pad put on. -/
theorem messagesRoundTripInEveryMode : Obligations.MessagesRoundTripInEveryMode := by
  intro s t s' m riv hbuf hfits he hkey hbuf' hilen hbytes
  cases (exec_msgenc_of_fits hfits m riv).symm.trans he
  have hreceived : s'.Received (s.encryptMessage m riv) := ⟨hilen, hbytes⟩
  obtain ⟨hunpad, hpayload⟩ := unpad_of_paddedBlocks fun i hi => hreceived.decrypted hfits hbuf hkey (i := i) hi
  obtain ⟨_, _, _, _, _, _, h⟩ := s'.decryptMessage_frame m (padBlocks s.ilen.toNat)
  rw [hunpad] at h
  refine ⟨_, exec_msgdec_of_hasBody (hreceived.hasBody hfits hbuf hbuf'), ?_, hpayload, by rw [h], by rw [h], by rw [h], ?_⟩
  · rw [h]
    exact (BitVec.ofNat_toNat ..).trans (BitVec.setWidth_eq _)
  · rw [State.decryptMessage_iv, State.encryptMessage_iv]
    by_cases hm : m = .ecb
    · rw [if_pos hm, if_pos hm]
    · rw [if_neg hm, if_neg hm, hreceived.iv_eq hfits hbuf hm]

end Sys2Proof.Machine
end

section
/-! SUPPORT. What each hook of the core does to a core invocation, with the four statements about the hooks (46_variant R200, R204 to R207, R210; 60_exceptions R231, R236). -/

namespace Sys2Proof.Machine

/-! ### NR or SWAPR out of range -/

theorem variantParams_eq_none {s : State} (h : 16 < s.variant.nr.toNat ∨ 16 < s.variant.swapr.toNat) :
    variantParams s = none := if_pos h

/-- Settles O33: without legal parameters, the one outcome of either command is `State.fail`, which writes the error record alone. -/
theorem variantOutOfRangeFailsBlockCommands : Obligations.VariantOutOfRangeFailsBlockCommands := by
  intro s hrange
  have hnone := variantParams_eq_none hrange
  have henc : exec .encblk s = .next (s.fail .inputFormat) := by simpa [hnone] using exec_encblk_cases s
  have hdec : exec .decblk s = .next (s.fail .inputFormat) := by simpa [hnone] using exec_decblk_cases s
  exact ⟨henc, hdec⟩

/-! ### The round trip -/

/-- NR = 16 cuts off no round, as NR = 0 does (46_variant R206). -/
theorem roundCount_eq_sixteen {vp : VariantParams} (hnr : vp.nr = 0 ∨ vp.nr = 16) : roundCount vp = 16 := by
  unfold roundCount
  split <;> omega

/-- Settles O28: with all sixteen rounds, either direction has the subkeys of the other in the reverse order, whatever REV_KEYS and the shift schedule are. -/
theorem roundTripUnderKeyVariants : Obligations.RoundTripUnderKeyVariants := by
  intro key block vp hpermutations hskipSwap hswapr hnr
  have hdec := roundKeys_dec (roundCount_eq_sixteen hnr) key
  have henc : roundKeys key .enc vp = (roundKeys key .dec vp).reverse := by rw [hdec, List.reverse_reverse]
  exact ⟨cipherCore_out_of_reverse hpermutations hskipSwap hswapr hdec block,
    cipherCore_out_of_reverse hpermutations hskipSwap hswapr henc block⟩

/-! ### REV_KEYS -/

/-- Settles O29: the direction enters the core only through the sequence of the subkeys, which REV_KEYS reverses, and through TR.DIR. -/
theorem reverseKeysExchangesDirections : Obligations.ReverseKeysExchangesDirections := by
  intro block key vp enc dec
  have hkeys : ∀ b, subkeySequence b .enc (!vp.revKeys) = subkeySequence b .dec vp.revKeys := fun b =>
    subkeySequence_not b vp.revKeys
  refine ⟨rfl, ?_⟩
  simp only [enc, dec, cipherCore, hkeys]
  rfl

/-! ### NR and SWAPR -/

/-- A SWAPR beyond the last of the rounds exchanges nothing in them (46_variant R207). -/
theorem runRounds_of_swapr_beyond {swapr i : Nat} {ks : List Subkey} (hbeyond : i + ks.length < swapr) (h : Halves) :
    runRounds swapr i ks h = runRounds 0 i ks h := by
  induction ks generalizing i h with
  | nil => rfl
  | cons k rest ih =>
    rw [List.length_cons] at hbeyond
    have hnow : swapr ≠ i + 1 := by omega
    have hlater : i + 1 + rest.length < swapr := by omega
    simp only [runRounds, if_neg hnow, ih hlater, if_neg (Nat.succ_ne_zero i).symm]

/-- SWAPR on the last round exchanges the final halves and nothing before them (46_variant R207). -/
theorem runRounds_of_swapr_last {ks : List Subkey} (hks : ks ≠ []) (h : Halves) :
    (runRounds ks.length 0 ks h).2 = (runRounds 0 0 ks h).2.swap := by
  obtain ⟨before, k, rfl⟩ := (List.eq_nil_or_concat ks).resolve_left hks
  have hbefore : runRounds (before.length + 1) 0 before h = runRounds 0 0 before h :=
    runRounds_of_swapr_beyond (by omega) h
  simp [runRounds_concat, hbefore]

/-- The core looks at SWAPR in the rounds alone. -/
theorem cipherCore_congr_swapr {key : Block} {dir : Dir} {vp : VariantParams} {a b : Nat}
    (hrounds : ∀ h, runRounds a 0 (roundKeys key dir vp) h = runRounds b 0 (roundKeys key dir vp) h) (block : Block) :
    cipherCore block key dir { vp with swapr := a } = cipherCore block key dir { vp with swapr := b } := by
  simp only [roundKeys, shiftAmounts, roundCount] at hrounds
  simp only [cipherCore, shiftAmounts, roundCount, hrounds]

/-- NR = 16 executes the rounds that NR = 0 executes (46_variant R206). -/
theorem cipherCore_nr_sixteen (block key : Block) (dir : Dir) (vp : VariantParams) :
    cipherCore block key dir { vp with nr := 16 } = cipherCore block key dir { vp with nr := 0 } := rfl

theorem cipherCore_swapr_beyond {vp : VariantParams} (hnr : vp.nr ≤ 16) {j : Nat} (hj : roundCount vp < j)
    (block key : Block) (dir : Dir) :
    cipherCore block key dir { vp with swapr := j } = cipherCore block key dir { vp with swapr := 0 } := by
  have hbeyond : 0 + (roundKeys key dir vp).length < j := by rwa [roundKeys_length hnr, Nat.zero_add]
  exact cipherCore_congr_swapr (runRounds_of_swapr_beyond hbeyond) block

/-- The exchange after the last round and the half-swap before FP undo each other, so SWAPR on the last round does what turning SKIP_SWAP around does (46_variant R203, R207). -/
theorem cipherCore_out_swapr_last {vp : VariantParams} (hnr : vp.nr ≤ 16) (block key : Block) (dir : Dir) :
    (cipherCore block key dir { vp with swapr := roundCount vp }).out =
      (cipherCore block key dir { vp with swapr := 0, skipSwap := !vp.skipSwap }).out := by
  have hlength := roundKeys_length hnr key dir
  have hks : roundKeys key dir vp ≠ [] :=
    List.ne_nil_of_length_pos (hlength ▸ (roundCount_bounds hnr).1)
  have hlast : ∀ h, (runRounds (roundCount vp) 0 (roundKeys key dir vp) h).2 =
      (runRounds 0 0 (roundKeys key dir vp) h).2.swap := hlength ▸ runRounds_of_swapr_last hks
  have hkeys : ∀ (j : Nat) (b : Bool),
      roundKeys key dir { vp with swapr := j, skipSwap := b } = roundKeys key dir vp := fun _ _ => rfl
  simp only [cipherCore_out, hkeys, hlast, Halves.swap_swap]
  cases vp.skipSwap <;> rfl

/-- Settles O30: NR = 16 is by evaluation NR = 0, and where SWAPR exchanges the halves is known round by round. -/
theorem hookIdentitiesHold : Obligations.HookIdentitiesHold := fun block key dir vp hnr =>
  ⟨cipherCore_nr_sixteen block key dir vp, fun _ hj => cipherCore_swapr_beyond hnr hj block key dir,
    cipherCore_out_swapr_last hnr block key dir⟩

end Sys2Proof.Machine
end

section
/-! SUPPORT. Which words are illegal commands, by their fields (30_encoding R71, R75). -/

namespace Sys2Proof

/-- The three causes of an illegal command, format by format: an opcode above 0x0B, a must-be-zero bit that is set, a reserved MODE (R75). -/
def IllegalFields (w : Word) : Prop :=
  0x0B < (opcField w).toNat ∨
  ((opcField w).toNat ∈ [0x04, 0x08] ∧ (w.extractLsb' 11 21 ≠ 0#21 ∨ 4 < (modeField w).toNat)) ∨
  ((opcField w).toNat = 0x07 ∧ (w.extractLsb' 12 20 ≠ 0#20 ∨ 4 < (modeField w).toNat)) ∨
  ((opcField w).toNat ∉ [0x04, 0x07, 0x08] ∧ w.extractLsb' 8 24 ≠ 0#24)

/-- A word that carries the fields of a well-formed command has none of the three causes. -/
theorem HasFields.not_illegalFields {w : Word} {i : Instr} (h : HasFields w i) (hi : i.WellFormed) :
    ¬ IllegalFields w := by
  obtain ⟨hopc, hmode, hriv, hhigh⟩ := h
  rw [Instr.wellFormed_iff, ← hmode] at hi
  unfold IllegalFields
  rw [hopc]
  cases i
  case nop | keyexp | encblk | decblk | mblke | mblkd | ivgen | clrerr | sreset =>
    have hzero := (bitsFrom8_eq_zero_iff w).mpr ⟨hmode, (bitsFrom11_eq_zero_iff w).mpr ⟨hriv, hhigh⟩⟩
    simp [Instr.opc, hzero]
  case minit mode | msgdec mode =>
    have hzero := (bitsFrom11_eq_zero_iff w).mpr ⟨hriv, hhigh⟩
    simp [Instr.opc, hzero, hi]
  case msgenc mode riv => simp [Instr.opc, hhigh, hi]

theorem decode_of_illegalFields {w : Word} (h : IllegalFields w) : ∃ r, decode w = .error r := by
  cases hd : decode w with
  | error r => exact ⟨r, rfl⟩
  | ok i =>
    obtain ⟨hf, hi⟩ := hasFields_of_decode hd
    exact absurd h (hf.not_illegalFields hi)

end Sys2Proof
end

section
/-! SUPPORT. How a command ends, when it draws, and what an illegal word and an input that MSGDEC refuses come to, with the statements about the system commands and the errors (30_encoding R75; 45_mode_message R184; 47_system_commands R220 to R225; 60_exceptions R235 to R239, R252, R253). -/

namespace Sys2Proof.Machine

/-! ### ERRS and the draw counter under the chain and message operations -/

@[simp] theorem State.chainStep_status_errs (m : Mode) (dir : Dir) (s : State) :
    (s.chainStep m dir).status.errs = s.status.errs := by rw [State.chainStep_eq]

@[simp] theorem State.encryptMessage_status_errs (m : Mode) (riv : Bool) (s : State) :
    (s.encryptMessage m riv).status.errs = s.status.errs := by
  obtain ⟨_, _, _, _, h⟩ := s.encryptMessage_frame m riv
  rw [h]

@[simp] theorem State.decryptMessage_status_errs (m : Mode) (k : Nat) (s : State) :
    (s.decryptMessage m (8 * k)).status.errs = s.status.errs := by
  obtain ⟨_, _, _, _, _, _, h⟩ := s.decryptMessage_frame m k
  rw [h]

@[simp] theorem State.chainStep_draws (m : Mode) (dir : Dir) (s : State) : (s.chainStep m dir).draws = s.draws := by
  rw [State.chainStep_eq]

@[simp] theorem State.encryptMessage_draws (m : Mode) (riv : Bool) (s : State) :
    (s.encryptMessage m riv).draws = (s.chooseIv m riv).draws := by
  obtain ⟨_, _, _, _, h⟩ := s.encryptMessage_frame m riv
  rw [h]

@[simp] theorem State.decryptMessage_draws (m : Mode) (k : Nat) (s : State) :
    (s.decryptMessage m (8 * k)).draws = s.draws := by
  obtain ⟨_, _, _, _, _, _, h⟩ := s.decryptMessage_frame m k
  rw [h]

/-! ### How a command ends -/

/-- The end of a command that completes: `ERR <- 0`, ERRS kept (60_exceptions R236). -/
structure State.Completes (s t : State) : Prop where
  err : t.status.err = .completed
  errs : t.status.errs = s.status.errs

/-- Every command but the two that clear ERRS completes, or is `State.fail` of an error and nothing else. -/
theorem exec_completes_or_fails {i : Instr} {s t : State} (hclr : i ≠ .clrerr) (hreset : i ≠ .sreset)
    (he : exec i s = .next t) : s.Completes t ∨ ∃ c, c ≠ ErrCode.completed ∧ t = s.fail c := by
  cases i with
  | clrerr => exact absurd rfl hclr
  | sreset => exact absurd rfl hreset
  | nop | keyexp | ivgen => cases he; exact .inl ⟨rfl, rfl⟩
  | encblk =>
    obtain ⟨-, hx⟩ | ⟨vp, -, hx⟩ := exec_encblk_cases s <;> cases hx.symm.trans he
    · exact .inr ⟨_, by decide, rfl⟩
    · exact .inl ⟨rfl, rfl⟩
  | decblk =>
    obtain ⟨-, hx⟩ | ⟨vp, -, hx⟩ := exec_decblk_cases s <;> cases hx.symm.trans he
    · exact .inr ⟨_, by decide, rfl⟩
    · exact .inl ⟨rfl, rfl⟩
  | minit mode =>
    obtain ⟨-, hx⟩ | ⟨m, -, hx⟩ := exec_minit_cases mode s <;> cases hx.symm.trans he
    · exact .inr ⟨_, by decide, rfl⟩
    · exact .inl ⟨rfl, rfl⟩
  | mblke | mblkd => cases he; exact .inl ⟨rfl, State.chainStep_status_errs ..⟩
  | msgenc mode riv =>
    obtain ⟨-, hx⟩ | ⟨m, -, -, hx⟩ | ⟨m, -, -, hx⟩ := exec_msgenc_cases mode riv s <;> cases hx.symm.trans he
    · exact .inr ⟨_, by decide, rfl⟩
    · exact .inr ⟨_, by decide, rfl⟩
    · exact .inl ⟨rfl, State.encryptMessage_status_errs ..⟩
  | msgdec mode =>
    obtain ⟨-, hx⟩ | ⟨m, c, -, hc, hx⟩ | ⟨m, -, -, -, hwhole, hx⟩ := exec_msgdec_cases mode s <;> cases hx.symm.trans he
    · exact .inr ⟨_, by decide, rfl⟩
    · exact .inr ⟨c, hc, rfl⟩
    · obtain ⟨k, hk⟩ := Nat.dvd_of_mod_eq_zero hwhole
      rw [hk]
      exact .inl ⟨rfl, State.decryptMessage_status_errs ..⟩

/-- Whatever is pending, a step answers a next state: an event of the host is over at once or is a command word. -/
theorem step_next (s : State) : ∃ t, step s = .next t := by
  unfold step
  split
  · exact ⟨_, rfl⟩
  · split
    · exact ⟨_, rfl⟩
    next w u _ =>
      obtain ⟨t, ht⟩ := execWord_next w u
      exact ⟨_, ht u.pending u.resp⟩

/-! ### Draws -/

/-- The commands that draw: IVGEN, and MSGENC with RIV outside ECB where its length check passes (47_system_commands R222, R225). -/
def DrawsIn (i : Instr) (s : State) : Prop :=
  i = .ivgen ∨ ∃ m, m ≠ Mode.ecb ∧ i = .msgenc (modeNumber m) true ∧ s.ilen.toNat + 16 ≤ s.bufBytes

theorem exec_draws_of_drawsIn {i : Instr} {s t : State} (hi : DrawsIn i s) (he : exec i s = .next t) :
    t.draws = s.draws + 1 ∧ t.iv = Config.draw s.draws := by
  obtain rfl | ⟨m, hm, rfl, hfits⟩ := hi
  · cases he
    exact ⟨rfl, rfl⟩
  · cases (exec_msgenc_of_fits hfits m true).symm.trans he
    rw [State.encryptMessage_draws, State.encryptMessage_iv, State.chooseIv, if_pos ⟨hm, rfl⟩]
    exact ⟨rfl, rfl⟩

theorem exec_draws_of_not_drawsIn {i : Instr} {s t : State} (hi : ¬ DrawsIn i s) (he : exec i s = .next t) :
    t.draws = s.draws := by
  cases i with
  | ivgen => exact absurd (.inl rfl) hi
  | nop | keyexp | clrerr | sreset => cases he; rfl
  | mblke | mblkd => cases he; exact State.chainStep_draws ..
  | encblk => obtain ⟨-, hx⟩ | ⟨vp, -, hx⟩ := exec_encblk_cases s <;> cases hx.symm.trans he <;> rfl
  | decblk => obtain ⟨-, hx⟩ | ⟨vp, -, hx⟩ := exec_decblk_cases s <;> cases hx.symm.trans he <;> rfl
  | minit mode => obtain ⟨-, hx⟩ | ⟨m, -, hx⟩ := exec_minit_cases mode s <;> cases hx.symm.trans he <;> rfl
  | msgenc mode riv =>
    obtain ⟨-, hx⟩ | ⟨m, -, -, hx⟩ | ⟨m, hmode, hfits, hx⟩ := exec_msgenc_cases mode riv s <;> cases hx.symm.trans he
    · rfl
    · rfl
    · have hnot : ¬ (m ≠ .ecb ∧ riv = true) := by
        rintro ⟨hm, rfl⟩
        exact hi (.inr ⟨m, hm, by rw [modeOfBits_inv hmode], hfits⟩)
      rw [State.encryptMessage_draws, State.chooseIv, if_neg hnot]
  | msgdec mode =>
    obtain ⟨c, hx⟩ | ⟨m, k, -, -, hx⟩ := exec_msgdec_fails_or_decrypts mode s <;> cases hx.symm.trans he
    · rfl
    · exact State.decryptMessage_draws ..

/-! ### Illegal words -/

theorem execWord_of_illegalFields {w : Word} (h : IllegalFields w) (s : State) :
    execWord w s = .next (s.fail .illegalCommand) := by
  obtain ⟨r, hr⟩ := decode_of_illegalFields h
  exact execWord_of_illegal hr s

/-! ### The three errors of MSGDEC, in the order of their checking (60_exceptions R239) -/

section
variable {s : State} {m : Mode}

theorem exec_msgdec_of_tooLong (hlong : s.bufBytes < s.ilen.toNat) :
    exec (.msgdec (modeNumber m)) s = .next (s.fail .inputFormat) := by
  show execMsgdec (modeNumber m) s = _
  simp only [execMsgdec, modeOfBits_modeNumber, if_pos hlong]

theorem exec_msgdec_of_missingIv (hfits : s.ilen.toNat ≤ s.bufBytes) (hm : m ≠ .ecb) (hshort : s.ilen.toNat < 16) :
    exec (.msgdec (modeNumber m)) s = .next (s.fail .missingIv) := by
  show execMsgdec (modeNumber m) s = _
  simp only [execMsgdec, modeOfBits_modeNumber, if_neg (Nat.not_lt.mpr hfits), if_pos (And.intro hm hshort)]

theorem exec_msgdec_of_partialBlock (hfits : s.ilen.toNat ≤ s.bufBytes) (hiv : m = .ecb ∨ 16 ≤ s.ilen.toNat)
    (hpartial : (s.ilen.toNat - bodyOffset m) % 8 ≠ 0) :
    exec (.msgdec (modeNumber m)) s = .next (s.fail .length) := by
  have hlong : ¬ (m ≠ .ecb ∧ s.ilen.toNat < 16) := fun ⟨hm, hlt⟩ => hiv.elim hm (Nat.not_le.mpr hlt)
  show execMsgdec (modeNumber m) s = _
  simp only [execMsgdec, modeOfBits_modeNumber, if_neg (Nat.not_lt.mpr hfits), if_neg hlong, if_pos hpartial]

end

/-! ### The statements -/

/-- Settles O59: a command draws where `DrawsIn` says, and there the draw goes to IV. -/
theorem drawsAreMadeOnlyForAnIv : Obligations.DrawsAreMadeOnlyForAnIv := fun _ _ _ he =>
  ⟨fun hi => exec_draws_of_drawsIn hi he, fun hi => exec_draws_of_not_drawsIn hi he⟩

/-- Settles O16: NOP is `State.complete` and nothing else. -/
theorem nopClearsOnlyErr : Obligations.NopClearsOnlyErr := ⟨decode_of_hasFields (hasFields_encode .nop) trivial, fun _ => rfl⟩

/-- Settles O17: a command other than CLRERR and SRESET keeps ERRS where it completes and sets it where it fails. -/
theorem clrerrClearsTheErrorRecord : Obligations.ClrerrClearsTheErrorRecord := by
  refine ⟨decode_of_hasFields (hasFields_encode .clrerr) trivial, fun i s t hclr hreset hs he => ?_, fun _ => rfl⟩
  obtain hend | ⟨c, -, rfl⟩ := exec_completes_or_fails hclr hreset he
  · exact hend.errs.trans hs
  · rfl

/-- Settles O18: IVGEN is `State.drawIv` and completion. -/
theorem ivgenStoresOneDraw : Obligations.IvgenStoresOneDraw := fun _ => rfl

/-- Settles O7: a word with one of the three causes runs no command, and `State.fail` writes the error record alone. -/
theorem illegalCommandRecordsOnlyTheError : Obligations.IllegalCommandRecordsOnlyTheError := by
  intro s w hillegal rest
  rw [step_cmd, execWord_of_illegalFields hillegal]
  rfl

/-- Settles O52. -/
theorem everyStepAnswersANextState : Obligations.EveryStepAnswersANextState := ⟨step_next, exec_next⟩

/-- Settles O53: CLRERR and SRESET complete and clear ERRS; the others are `exec_completes_or_fails`. -/
theorem commandsCompleteOrChangeOnlyTheRecord : Obligations.CommandsCompleteOrChangeOnlyTheRecord := by
  refine ⟨fun i s t he => ?_, fun w r s hr => execWord_of_illegal hr s⟩
  by_cases hclears : i = .clrerr ∨ i = .sreset
  · rw [if_pos hclears]
    obtain rfl | rfl := hclears <;> cases he <;> exact .inl ⟨rfl, rfl⟩
  · rw [if_neg hclears]
    obtain ⟨hclr, hreset⟩ := not_or.mp hclears
    obtain ⟨herr, herrs⟩ | hfail := exec_completes_or_fails hclr hreset he
    · exact .inl ⟨herr, herrs⟩
    · exact .inr hfail

/-- Settles O45: each error is met where the earlier checks pass, and the decoder refuses a reserved MODE before any of them. -/
theorem msgdecErrorsInOrder : Obligations.MsgdecErrorsInOrder := by
  refine ⟨fun s m => ⟨exec_msgdec_of_tooLong, exec_msgdec_of_missingIv, fun hfits hiv hpartial => ?_⟩,
    fun s w hopc hmode => ?_⟩
  · rw [← bodyOffset_eq] at hpartial
    exact exec_msgdec_of_partialBlock hfits hiv hpartial
  · exact execWord_of_illegalFields (.inr (.inl ⟨by simp [hopc], .inr hmode⟩)) s

end Sys2Proof.Machine
end
